-- ==== Sys2Proof/Word.lean ====
section
/-!
DEFINITION. Word.lean: the payload types of rule R102 (10_state.md) and the format types of rules
R300 and R301 (30_encoding.md). Nothing here computes: the arithmetic on these types stands in
Sys2Proof/Machine/Operands.lean.
-/
namespace Sys2Proof

/-- An 8-bit character value (rule R300). -/
abbrev Byte := BitVec 8

/-- The 32 data bits of a word (rule R301): lane `i` is bits `8i+7 .. 8i`. -/
abbrev Data := BitVec 32

/-- The four marker bits of a word (rule R301): bit `i` is the marker of lane `i`. -/
abbrev Marks := BitVec 4

/-- `Char` of rule R102: one character, `k` true for a control character (format `CHAR9`, rule R300). -/
structure Chr where
  c : Byte
  k : Bool
  deriving DecidableEq, Repr

/-- `RawWord` of rule R102: a received word as the front end offers it. An end-of-packet flag the
front end may drive is ignored (92_eei_decisions.md D7), so there is no field for it. -/
structure RawWord where
  data : Data
  k : Marks
  deriving DecidableEq, Repr

/-- `DWord` of rule R102: the raw word and the corrected character beside it. -/
structure DWord where
  data : Data
  k : Marks
  dchar : Byte
  dcharK : Bool
  deriving DecidableEq, Repr

/-- `Word` of rule R102: a word in flight with its end-of-packet flag. -/
structure Word where
  data : Data
  k : Marks
  eop : Bool
  deriving DecidableEq, Repr

/-- `WWord` of rule R102: the writer's output; `crcEn` marks a word of a command packet. -/
structure WWord where
  data : Data
  k : Marks
  eop : Bool
  crcEn : Bool
  deriving DecidableEq, Repr

end Sys2Proof
end

