-- ==== Sys2Proof/Config.lean ====
section
/-!
DEFINITION. Config.lean: what an implementation of the core fixes (rule R10, 00_scope.md; the three
OPEN parameters and the decided ones of 92_eei_decisions.md), and the free values: the contents of a
memory word that nothing has written (rule R124, 10_state.md).
-/
namespace Sys2Proof

/-- The parameters of rule R10. They never change while the core runs. -/
structure Config where
  /-- N_SLOTS: number of slots of the receive ring. -/
  nSlots : Nat
  /-- SLOT_WORDS: words one slot holds. -/
  slotWords : Nat
  /-- BUF_WORDS: words the transmit command buffer holds. -/
  bufWords : Nat
  /-- TEST_CNT_BITS: width of each test-checker counter. -/
  testCntBits : Nat
  /-- TYPE_STREAM. Its default is PRESUMED, as TYPE_HEARTBEAT's and TYPE_COMMAND's are (log entry 10). -/
  typeStream : Byte
  /-- TYPE_HEARTBEAT. -/
  typeHeartbeat : Byte
  /-- TYPE_COMMAND: a set of type bytes, as a list (log entry 15). -/
  typeCommand : List Byte
  deriving DecidableEq, Repr

/-- TYPE_TEST = 0x04, the one type code the source gives (rule R9). -/
def typeTest : Byte := 0x04#8

namespace Config

/-- The parameters the examples of 95_test_vectors.md use (rule R10), with the decided values.
DESIGN CHOICE (log entry 1): the core of `State.reset` has these; every statement is about every
configuration that `Config.valid` accepts. -/
def examples : Config where
  nSlots := 4
  slotWords := 16
  bufWords := 16
  testCntBits := 16
  typeStream := 0x01#8
  typeHeartbeat := 0x09#8
  typeCommand := [0x03#8, 0x06#8]

/-- The constraints of rule R10 and of 93_implementation_defined.md items 1 to 4: N_SLOTS a power of
two and at least 2, SLOT_WORDS and BUF_WORDS at least 1, and no type code shared by two classes
(DEDUCED, log entry 19). -/
def valid (c : Config) : Bool :=
  decide (2 ≤ c.nSlots) && decide (2 ^ Nat.log2 c.nSlots = c.nSlots)
    && decide (1 ≤ c.slotWords) && decide (1 ≤ c.bufWords)
    && decide (c.typeStream ≠ typeTest) && decide (c.typeHeartbeat ≠ typeTest)
    && decide (c.typeStream ≠ c.typeHeartbeat)
    && c.typeCommand.all fun t =>
      decide (t ≠ typeTest) && decide (t ≠ c.typeStream) && decide (t ≠ c.typeHeartbeat)

/-- `ceil(log2 n)`, the width of an index below `n`. -/
def clog2 (n : Nat) : Nat := if n ≤ 1 then 0 else Nat.log2 (n - 1) + 1

/-- LEN_BITS (rule R10): `ceil(log2(BUF_WORDS + 1))`. -/
def lenBits (c : Config) : Nat := clog2 (c.bufWords + 1)

/-- Width of the port `buf_addr` (rule R119). -/
def bufAddrBits (c : Config) : Nat := clog2 c.bufWords

/-- Width of the port `word_raddr` (rule R119). -/
def wordAddrBits (c : Config) : Nat := clog2 c.slotWords

/-- FREE VALUE (rule R124, 93_implementation_defined.md item 6; log entry 2): what the command buffer
gives at an index not written since the last reset. The first argument is the tick's number, so that no two
reads need agree. -/
opaque freeBufWord : Nat → Nat → Data

/-- FREE VALUE (rules R124, R206 and R649; log entry 2): what the slot memory gives at a word not
written since the last reset, and at a word index at or above SLOT_WORDS. Arguments: the tick's number, the
slot, the word. -/
opaque freeSlotWord : Nat → Nat → Nat → Data

end Config
end Sys2Proof
end

