-- ==== Sys2Proof/Machine/Operands.lean ====
section
/-!
DEFINITION. Operands.lean: every value the hardware assembles from bits (rule R326, 30_encoding.md):
lanes and replicated bytes (R12, R18), the majority vote (R401, R402), the CRC step (R421), the bit
reversal (R13), the test pattern (R314), the big-endian fields (R660), the fixed words and sequences
(R308 to R312), and the recognisers of the receive side (R320 to R325, R521).
-/
namespace Sys2Proof.Machine

/-! ### Lanes and replicated bytes (rules R12, R18) -/

/-- `lane(w, i) = w.data[8i+7 : 8i]` (rule R12). -/
def lane (d : Data) (i : Nat) : Byte := BitVec.extractLsb' (8 * i) 8 d

/-- `word4(c0, c1, c2, c3)`: lane `i` is `ci` (rules R12, R18). -/
def word4 (c0 c1 c2 c3 : Byte) : Data := c3 ++ c2 ++ c1 ++ c0

/-- `rep4(c)`: four copies of one byte (rule R18). -/
def rep4 (c : Byte) : Data := word4 c c c c

/-- `be32(w)`: lane 0 becomes the most significant byte (rules R18, R660; log entry 11). -/
def be32 (d : Data) : Data := lane d 0 ++ lane d 1 ++ lane d 2 ++ lane d 3

/-- `pat(n)`: lane `i` is `(n + i) mod 256` (rules R18, R314). -/
def pat (n : Nat) : Data :=
  word4 (BitVec.ofNat 8 n) (BitVec.ofNat 8 (n + 1)) (BitVec.ofNat 8 (n + 2)) (BitVec.ofNat 8 (n + 3))

/-- `rev32(x)[i] = x[31-i]` (rule R13). -/
def rev32 (x : Data) : Data := x.reverse

/-- The markers of a word all of whose lanes are data. -/
def noMarks : Marks := 0#4

/-- The markers of a word all of whose lanes are control characters. -/
def allMarks : Marks := 0xF#4

/-! ### The majority vote (rules R18, R401, R402) -/

/-- The four 3-of-4 subset terms of a quad (rule R401), in its order. -/
structure Terms (α : Type) where
  t0 : α
  t1 : α
  t2 : α
  t3 : α
  deriving DecidableEq, Repr

/-- The terms of the four data lanes, `a` being lane 0 (rule R401). -/
def dataTerms (d : Data) : Terms Byte where
  t0 := lane d 0 &&& lane d 1 &&& lane d 2
  t1 := lane d 0 &&& lane d 1 &&& lane d 3
  t2 := lane d 0 &&& lane d 2 &&& lane d 3
  t3 := lane d 1 &&& lane d 2 &&& lane d 3

/-- The terms of the four markers (rule R401). -/
def markTerms (k : Marks) : Terms Bool where
  t0 := k.getLsbD 0 && k.getLsbD 1 && k.getLsbD 2
  t1 := k.getLsbD 0 && k.getLsbD 1 && k.getLsbD 3
  t2 := k.getLsbD 0 && k.getLsbD 2 && k.getLsbD 3
  t3 := k.getLsbD 1 && k.getLsbD 2 && k.getLsbD 3

/-- The OR of the four data terms (rule R402). -/
def orData (t : Terms Byte) : Byte := t.t0 ||| t.t1 ||| t.t2 ||| t.t3

/-- The OR of the four marker terms (rule R402). -/
def orMarks (t : Terms Bool) : Bool := t.t0 || t.t1 || t.t2 || t.t3

/-- `maj4` on bytes (rule R18). -/
def maj4 (a b c d : Byte) : Byte := (a &&& b &&& c) ||| (a &&& b &&& d) ||| (a &&& c &&& d) ||| (b &&& c &&& d)

/-- The corrected character of a word's four lanes (rule R402). -/
def voteChar (d : Data) : Byte := orData (dataTerms d)

/-- The corrected marker of a word's four markers (rule R402). -/
def voteMark (k : Marks) : Bool := orMarks (markTerms k)

/-- What the decoder delivers for a word (rules R402, R406): the raw word and its vote. -/
def voted (w : RawWord) : DWord where
  data := w.data
  k := w.k
  dchar := voteChar w.data
  dcharK := voteMark w.k

/-! ### The CRC function (rules R420 to R425, 41_crc32.md) -/

/-- CRC_POLY (rules R9, R420). -/
def crcPoly : Data := 0x04C11DB7#32

/-- CRC_SEED (rules R9, R420). -/
def crcSeed : Data := 0xFFFFFFFF#32

/-- CRC_CHECK (rules R9, R420). -/
def crcCheckValue : Data := 0#32

/-- One data bit into the register: the body of rule R421's loop. -/
def crcBit (r : Data) (b : Bool) : Data :=
  (r <<< 1) ^^^ (if r.msb ^^ b then crcPoly else 0#32)

/-- The first `n` bits of `d`, bit 0 first, into the register (rule R421). -/
def crcBits (r d : Data) : Nat → Data
  | 0 => r
  | n + 1 => crcBit (crcBits r d n) (d.getLsbD n)

/-- `crc_step(r, d)`: one word into the register (rule R421). -/
def crcStep (r d : Data) : Data := crcBits r d 32

/-- `crc_seq(ws)`: a word sequence into the seed (rule R423). -/
def crcSeq (ws : List Data) : Data := ws.foldl crcStep crcSeed

/-- The trailer a register value gives (rule R424; DEDUCED, log entry 20). -/
def crcTrailer (r : Data) : Data := rev32 r

/-! ### Control characters, fixed words and sequences (rules R304 to R314) -/

/-- `K(x, y) = (y << 5) | x` (rule R304). -/
def ctrl (x y : Nat) : Byte := BitVec.ofNat 8 ((y <<< 5) ||| x)

/-- pak_start, K27.7 (rule R305). -/
def pakStart : Byte := 0xFB#8
/-- pak_end, K29.7 (rule R305). -/
def pakEnd : Byte := 0xFD#8
/-- io_ack, K28.6 (rule R305). -/
def ioAck : Byte := 0xDC#8
/-- idle_comma, K28.5 (rule R305). -/
def idleComma : Byte := 0xBC#8
/-- idle_alignment, K28.1 (rule R305). -/
def idleAlignment : Byte := 0x3C#8
/-- trig_indic_28_2, K28.2 (rule R305). -/
def trigIndic282 : Byte := 0x5C#8
/-- trig_indic_28_4, K28.4 (rule R305). -/
def trigIndic284 : Byte := 0x9C#8
/-- stream_marker, K28.3: no block emits or interprets it (rules R305, R307). -/
def streamMarker : Byte := 0x7C#8
/-- The data byte of the second trigger-ack word (rule R311). -/
def ackByte : Byte := 0x01#8

/-- START_WORD (rule R308). -/
def startWord : Word := ⟨rep4 pakStart, allMarks, false⟩

/-- END_WORD (rule R309): the only word the framer sends with `eop`. -/
def endWord : Word := ⟨rep4 pakEnd, allMarks, true⟩

/-- IDLE_WORD (rule R310): lane 3 is the data byte 0xB5. -/
def idleWord : Word := ⟨word4 idleComma idleAlignment idleAlignment 0xB5#8, 0b0111#4, false⟩

/-- IOACK_WORD (rule R311). -/
def ioackWord : Word := ⟨rep4 ioAck, allMarks, false⟩

/-- ACK_DATA_WORD (rule R311). -/
def ackDataWord : Word := ⟨rep4 ackByte, noMarks, false⟩

/-- The self-test type word (rules R313, R606). -/
def typeTestData : Data := rep4 typeTest

/-- TEST_LAST = 0xFFC (rules R9, R314). -/
def testLast : BitVec 12 := 0xFFC#12

/-- IDLE_RELOAD = 9999 (rules R9, R441). -/
def idleReload : BitVec 14 := 9999#14

/-- The characters of the transmit trigger sequence (rules R312, R461): mode false is the normal
order, mode true the link-trigger order. An index above 2 is a delay character. -/
def trigSeq (mode : Bool) (d : Byte) (i : Nat) : Chr :=
  if i = 0 then ⟨if mode then trigIndic284 else trigIndic282, true⟩
  else if i = 1 ∨ i = 2 then ⟨if mode then trigIndic282 else trigIndic284, true⟩
  else ⟨d, false⟩

/-! ### Formats (rules R300 to R302, R333) -/

/-- A character as `CHAR9` bits: bit 8 is the marker (rule R300). -/
def chr9 (c : Byte) (k : Bool) : BitVec 9 := BitVec.ofBool k ++ c

/-- A word as `WORD36` bits: bits 35:32 are the markers (rule R301). -/
def word36 (d : Data) (k : Marks) : BitVec 36 := k ++ d

/-- The data of a `WORD36`. -/
def data36 (b : BitVec 36) : Data := BitVec.extractLsb' 0 32 b

/-- The markers of a `WORD36`. -/
def marks36 (b : BitVec 36) : Marks := BitVec.extractLsb' 32 4 b

/-- Character `i` of a `CHAR9x6` sequence, the first character in the low nine bits (rule R333; the
place of the later characters is log entry 3). -/
def seqChr (b : BitVec 54) (i : Nat) : BitVec 9 := BitVec.extractLsb' (9 * i) 9 b

/-- A trigger sequence as `CHAR9x6` bits (rules R312, R333). -/
def seqBits (mode : Bool) (d : Byte) : BitVec 54 :=
  let ch (i : Nat) : BitVec 9 := chr9 (trigSeq mode d i).c (trigSeq mode d i).k
  ch 5 ++ ch 4 ++ ch 3 ++ ch 2 ++ ch 1 ++ ch 0

/-! ### Receive recognisers (rules R320 to R325) -/

/-- `is_start` (rule R320). -/
def isStart (w : DWord) : Bool := w.dcharK && w.dchar == pakStart

/-- `is_end` (rule R321). -/
def isEnd (w : DWord) : Bool := w.dcharK && w.dchar == pakEnd

/-- `is_trig` (rule R322). -/
def isTrig (w : DWord) : Bool := w.dcharK && (w.dchar == trigIndic282 || w.dchar == trigIndic284)

/-- `is_ioack` (rule R323). -/
def isIoack (w : DWord) : Bool := w.dcharK && w.dchar == ioAck

/-- `is_ackdata` (rule R323). -/
def isAckData (w : DWord) : Bool := !w.dcharK && w.dchar == ackByte

/-- `is_idle` on a raw word (rule R324): raw lane 0 is the comma with its marker. -/
def isIdleRaw (d : Data) (k : Marks) : Bool := k.getLsbD 0 && lane d 0 == idleComma

/-- `is_idle` (rule R324). -/
def isIdle (w : DWord) : Bool := isIdleRaw w.data w.k

/-- The four ports of the classifier (rule R520). -/
inductive Port where
  | stream
  | test
  | heartbeat
  | command
  deriving DecidableEq, Repr

/-- The class of a type byte with its marker (rule R325); `none` is UNKNOWN. -/
def typeOfChar (c : Config) (ch : Byte) (k : Bool) : Option Port :=
  if k then none
  else if ch = typeTest then some .test
  else if ch = c.typeStream then some .stream
  else if ch = c.typeHeartbeat then some .heartbeat
  else if c.typeCommand.contains ch then some .command
  else none

/-- `type_of(w)` (rule R325). -/
def typeOf (c : Config) (w : DWord) : Option Port := typeOfChar c w.dchar w.dcharK

/-- The word classes of rule R521. -/
inductive WordClass where
  | idle
  | start
  | stop
  | other
  deriving DecidableEq, Repr

/-- The class of an accepted word, tested in rule R521's order. -/
def classOf (w : DWord) : WordClass :=
  if isIdle w then .idle else if isStart w then .start else if isEnd w then .stop else .other

/-! ### Fields that wrap at a width (rule R11) -/

/-- `x + 1` on a field of `w` bits. -/
def incAt (w x : Nat) : Nat := (x + 1) % 2 ^ w

/-- `x - 1` on a field of `w` bits. -/
def decAt (w x : Nat) : Nat := (x + 2 ^ w - 1) % 2 ^ w

end Sys2Proof.Machine
end

