-- ==== Sys2Proof/Syntax.lean ====
section
/-!
DEFINITION. Syntax.lean: the instructions, one constructor per row of spec/opcode_table.json, and the
formats a row's code is written in (rules R300 to R303 and R333, 30_encoding.md). The core fetches no
instructions (rule R217): a row is a code the core recognises or emits, a stream operation of one of
its blocks, or a host operation, and executing it is the tick in which it takes place (log entry 4).
-/
namespace Sys2Proof

/-- The two receive CRC checkers (rule R107), each behind one classifier port. -/
inductive CrcPort where
  | heartbeat
  | command
  deriving DecidableEq, Repr

/-- The host inputs of rule R119 but for `rst` and `link_ready`: the strobes, the write ports and the
read address of one tick. This is the format `HOST` of rule R303: named signals and no bits. -/
structure HostIn where
  bufWe : Bool
  bufAddr : Nat
  bufWdata : Data
  lenWe : Bool
  lenWdata : Nat
  startCmd : Bool
  startTest : Bool
  trigStrobe : Bool
  trigDelay : Byte
  linktrigMode : Bool
  trigAckStrobe : Bool
  rdWe : Bool
  rdWdata : Nat
  ackErrors : Bool
  slotRaddr : Nat
  wordRaddr : Nat
  deriving DecidableEq, Repr

/-- The host drives nothing. -/
def HostIn.quiet : HostIn where
  bufWe := false
  bufAddr := 0
  bufWdata := 0#32
  lenWe := false
  lenWdata := 0
  startCmd := false
  startTest := false
  trigStrobe := false
  trigDelay := 0#8
  linktrigMode := false
  trigAckStrobe := false
  rdWe := false
  rdWdata := 0
  ackErrors := false
  slotRaddr := 0
  wordRaddr := 0

/-- The rows of format `OPERATION` (rule R333): the stream operation of a block, named, with what its
template rule's operands leave to choose. -/
inductive Operation where
  | decode (w : RawWord)
  | crcAppend
  | crcCheck (p : CrcPort)
  | idleInsert
  | triggerRead
  | triggerAckRead
  | wordToChars
  | framePacket
  | classifyPacket
  | dropIdle
  | framingError
  | storeCommandPacket
  | heartbeatParse
  | testCheck
  | prioritySelect
  deriving DecidableEq, Repr

/-- A code in one of the table's formats (rules R300 to R303, R333). -/
inductive Code where
  /-- Six characters, the first in bits 8:0. -/
  | char9x6 (bits : BitVec 54)
  /-- A word with its markers in bits 35:32. -/
  | word36 (bits : BitVec 36)
  /-- A corrected character with its marker in bit 8. -/
  | dchar9 (bits : BitVec 9)
  /-- Named host signals. -/
  | host (signals : HostIn)
  /-- A named block operation. -/
  | operation (op : Operation)
  deriving DecidableEq, Repr

/-- One constructor per row of spec/opcode_table.json, in its order. -/
inductive Instr where
  /-- START_WORD (rule R308). -/
  | startWord
  /-- END_WORD (rule R309). -/
  | endWord
  /-- IDLE_WORD (rule R310). -/
  | idleWord
  /-- IOACK_WORD (rule R311). -/
  | ioackWord
  /-- ACK_DATA_WORD (rule R311). -/
  | ackDataWord
  /-- TYPE_TEST_WORD (rule R313). -/
  | typeTestWord
  /-- TYPE_WORD, `rep4(t)` (rule R313). -/
  | typeWord (t : Byte)
  /-- PAT_WORD, `pat(n)` (rule R314). -/
  | patWord (n : BitVec 12)
  /-- CRC_TRAILER_WORD (rule R424). -/
  | crcTrailerWord (trailer : Data)
  /-- TRIG_SEQ_NORMAL with its delay (rule R312). -/
  | trigSeqNormal (delay : Byte)
  /-- TRIG_SEQ_LINKTRIG with its delay (rule R312). -/
  | trigSeqLinktrig (delay : Byte)
  /-- RX_IDLE: a received word that `is_idle` accepts (rules R324, R541). -/
  | rxIdle (w : RawWord)
  /-- RX_START (rules R320, R540). -/
  | rxStart
  /-- RX_END (rules R321, R540). -/
  | rxEnd
  /-- RX_TRIG_28_2 (rules R322, R476). -/
  | rxTrig282
  /-- RX_TRIG_28_4 (rules R322, R476). -/
  | rxTrig284
  /-- RX_IOACK (rules R323, R489). -/
  | rxIoack
  /-- RX_ACKDATA (rules R323, R489). -/
  | rxAckdata
  /-- RX_TYPE_TEST (rules R325, R540). -/
  | rxTypeTest
  /-- RX_TYPE_STREAM (rules R325, R540). -/
  | rxTypeStream
  /-- RX_TYPE_HEARTBEAT (rules R325, R540). -/
  | rxTypeHeartbeat
  /-- RX_TYPE_COMMAND_03 (rules R325, R540). -/
  | rxTypeCommand03
  /-- RX_TYPE_COMMAND_06 (rules R325, R540). -/
  | rxTypeCommand06
  /-- DECODE of the word offered on `rx_in` (rule R413). -/
  | decode (w : RawWord)
  /-- CRC_APPEND (rule R434). -/
  | crcAppend
  /-- CRC_CHECK at one of the two checked ports (rule R435). -/
  | crcCheck (p : CrcPort)
  /-- IDLE_INSERT (rule R449). -/
  | idleInsert
  /-- TRIGGER_READ (rule R476). -/
  | triggerRead
  /-- TRIGGER_ACK_READ (rule R489). -/
  | triggerAckRead
  /-- WORD_TO_CHARS (rule R493). -/
  | wordToChars
  /-- FRAME_PACKET (rule R510). -/
  | framePacket
  /-- CLASSIFY_PACKET (rule R540). -/
  | classifyPacket
  /-- DROP_IDLE (rule R541). -/
  | dropIdle
  /-- FRAMING_ERROR (rule R542). -/
  | framingError
  /-- STORE_COMMAND_PACKET (rule R655). -/
  | storeCommandPacket
  /-- HEARTBEAT_PARSE (rule R664). -/
  | heartbeatParse
  /-- TEST_CHECK (rule R669). -/
  | testCheck
  /-- PRIORITY_SELECT (rule R692). -/
  | prioritySelect
  /-- HOST_START_CMD (rule R615). -/
  | hostStartCmd
  /-- HOST_START_TEST (rule R616). -/
  | hostStartTest
  /-- HOST_BUF_WRITE (rule R617). -/
  | hostBufWrite (addr : Nat) (wdata : Data)
  /-- HOST_LEN_WRITE (rule R617). -/
  | hostLenWrite (len : Nat)
  /-- HOST_RD_WRITE (rule R656). -/
  | hostRdWrite (rd : Nat)
  /-- HOST_ACK_ERRORS (rule R656). -/
  | hostAckErrors
  /-- HOST_SLOT_READ (rule R657). -/
  | hostSlotRead (slot : Nat) (word : Nat)
  /-- HOST_TRIG_STROBE (rule R469). -/
  | hostTrigStrobe (delay : Byte) (linktrig : Bool)
  /-- HOST_TRIG_ACK_STROBE (rule R484). -/
  | hostTrigAckStrobe
  deriving DecidableEq, Repr

end Sys2Proof
end

