-- ==== Sys2Proof/Machine/Blocks.lean ====
section
/-!
DEFINITION. Blocks.lean: the state of every block as plain data (rules R103 to R117, 10_state.md), the
two memories (rules R16, R200, R201), and the inputs and outputs of one tick (rules R118 to R120).
-/
namespace Sys2Proof.Machine

/-! ### Memories (rules R16, R200, R201) -/

/-- A word-indexed memory (rules R16, R201: no byte addressing): the words written since reset, by
rising index. An index that is not listed holds no defined value (rule R124). -/
abbrev Memory := List (Nat × Data)

/-- The canonical form: indices strictly rising. Every listed index holds a word, and an unlisted one
holds none, so no entry equals what an unlisted index reads as (DESIGN CHOICE, log entry 7). -/
def Memory.wf : Memory → Bool
  | [] => true
  | [_] => true
  | x :: y :: rest => decide (x.1 < y.1) && Memory.wf (y :: rest)

/-! ### Receive-side blocks (rules R103 to R110) -/

/-- Duplicate-character decoder `dcd` (rule R103). -/
structure Dcd where
  s1Valid : Bool
  s1Data : Data
  s1K : Marks
  s1T : Terms Byte
  s1Tk : Terms Bool
  s2Valid : Bool
  s2Data : Data
  s2K : Marks
  s2Dchar : Byte
  s2DcharK : Bool
  deriving DecidableEq, Repr

/-- States of the trigger reader (rule R104). -/
inductive TrdSt where
  | copy
  | readDelay
  | readLinktrig
  deriving DecidableEq, Repr

/-- Trigger reader `trd` (rule R104). -/
structure Trd where
  st : TrdSt
  delay : Byte
  linktrig : Byte
  pulse : Bool
  deriving DecidableEq, Repr

/-- States of the trigger-ack reader (rule R105). -/
inductive ArdSt where
  | copy
  | readAck
  deriving DecidableEq, Repr

/-- Trigger-ack reader `ard` (rule R105). -/
structure Ard where
  st : ArdSt
  pulse : Bool
  deriving DecidableEq, Repr

/-- States of the traffic classifier (rule R106). -/
inductive ClsSt where
  | scan
  | type
  | payload
  deriving DecidableEq, Repr

/-- Traffic classifier `cls` (rule R106). -/
structure Cls where
  st : ClsSt
  port : Port
  hv : Bool
  hData : Data
  hK : Marks
  deriving DecidableEq, Repr

/-- A receive CRC checker, `chk_hb` or `chk_cmd` (rule R107). -/
structure Chk where
  crc : Data
  hv : Bool
  hData : Data
  hK : Marks
  deriving DecidableEq, Repr

/-- Heartbeat reader `hbr` (rule R108). -/
structure Hbr where
  cnt : BitVec 2
  w0 : Data
  w1 : Data
  w2 : Data
  hostId : BitVec 32
  timestamp : BitVec 64
  deriving DecidableEq, Repr

/-- Test-sequence checker `tck` (rule R109). The counters are TEST_CNT_BITS wide. -/
structure Tck where
  wcnt : BitVec 11
  bad : Bool
  pktCnt : Nat
  errCnt : Nat
  deriving DecidableEq, Repr

/-- Command packet reassembler `rsm` (rule R110). `mem` holds word `a` of slot `s` at the index
`s * SLOT_WORDS + a`; `slotLen` holds one length per slot. -/
structure Rsm where
  wr : Nat
  rd : Nat
  wcount : Nat
  mem : Memory
  slotLen : List Nat
  bufferError : Bool
  deriving DecidableEq, Repr

/-! ### Transmit-side blocks (rules R111 to R117) -/

/-- States of the writer (rule R111). -/
inductive WrtSt where
  | idle
  | cmd
  | testType
  | testData
  deriving DecidableEq, Repr

/-- Command/test packet writer `wrt` (rule R111). `idx`, `curLen` and `len` are LEN_BITS wide. -/
structure Wrt where
  st : WrtSt
  idx : Nat
  curLen : Nat
  n : BitVec 12
  len : Nat
  buf : Memory
  deriving DecidableEq, Repr

/-- States of the transmit CRC inserter (rule R112). -/
inductive CinSt where
  | first
  | body
  | trailer
  | bypass
  deriving DecidableEq, Repr

/-- Transmit CRC inserter `cin` (rule R112). -/
structure Cin where
  st : CinSt
  crc : Data
  deriving DecidableEq, Repr

/-- States of the packet framer `frm` (rule R113), the source's four names. -/
inductive FrmSt where
  | idle
  | insertHeader
  | copy
  | insertFooter
  deriving DecidableEq, Repr

/-- States of the idle-word inserter (rule R114). -/
inductive IdlSt where
  | writeIdle
  | copy
  deriving DecidableEq, Repr

/-- Idle-word inserter `idl` (rule R114). -/
structure Idl where
  st : IdlSt
  cnt : BitVec 14
  deriving DecidableEq, Repr

/-- States of the trigger-ack inserter `ain` (rule R115). -/
inductive AinSt where
  | copy
  | ackK
  | ackData
  deriving DecidableEq, Repr

/-- Word-to-character converter `cnv` (rule R116). -/
structure Cnv where
  full : Bool
  data : Data
  k : Marks
  idx : BitVec 2
  deriving DecidableEq, Repr

/-- States of the trigger inserter (rule R117). -/
inductive TinSt where
  | copy
  | send
  deriving DecidableEq, Repr

/-- Trigger inserter `tin` (rule R117). -/
structure Tin where
  st : TinSt
  i : BitVec 3
  delay : Byte
  mode : Bool
  deriving DecidableEq, Repr

/-! ### Interfaces (rules R118 to R120) -/

/-- All inputs of one tick: the two levels, the stream inputs of rule R118 and the host inputs of rule
R119. They are fixed before the tick is evaluated (rule R682). -/
structure Inputs where
  rst : Bool
  linkReady : Bool
  rxValid : Bool
  rxWord : RawWord
  streamReady : Bool
  txReady : Bool
  host : HostIn
  deriving DecidableEq, Repr

/-- All outputs of one tick: the stream outputs of rule R118, `rx_in.ready`, and the status outputs of
rule R120. A stream that offers nothing is `none`. -/
structure Outputs where
  rxReady : Bool
  rxTaken : Bool
  streamOut : Option Word
  txOut : Option Chr
  txTaken : Bool
  busy : Bool
  wrPtr : Nat
  rdPtr : Nat
  bufferError : Bool
  bufferOverflow : Bool
  slotRdata : Data
  slotLenRdata : Nat
  decodeError : Bool
  crcErrorHb : Bool
  crcErrorCmd : Bool
  trigDetected : Bool
  trigRxDelay : Byte
  trigRxLinktrig : Byte
  ackReceived : Bool
  hbHostId : BitVec 32
  hbTimestamp : BitVec 64
  testError : Bool
  testPktCnt : Nat
  testErrCnt : Nat
  deriving DecidableEq, Repr

end Sys2Proof.Machine
end

