-- ==== Sys2Proof/Machine/Flags.lean ====
section
/-!
DEFINITION. Flags.lean: every status flag and pulse computation (rules R122, R702): `busy`, the sticky
`buffer_error`, and the conditions of the one-tick pulses. The core has no arithmetic condition codes.
-/
namespace Sys2Proof.Machine

/-- `busy := (wrt.st != IDLE)` (rule R604). -/
def busyFlag (w : Wrt) : Bool := w.st != .idle

/-- The CRC error condition of an accepted trailer: the register after it is not CRC_CHECK (rules R427,
R428). -/
def crcBad (c1 : Data) : Bool := c1 != crcCheckValue

/-- The overflow test of a completion (rule R644): the next write cursor is the read cursor. -/
def ringFull (c : Config) (r : Rsm) : Bool := (r.wr + 1) % c.nSlots == r.rd

/-- `rsm.buffer_error` in the next tick (rules R646, R648): an overflow sets it and wins over the
host's acknowledge. -/
def bufferErrorNext (flag ack overflow : Bool) : Bool := overflow || (flag && !ack)

/-- The decode-error condition of a word accepted by the classifier (rule R533): the five causes of
rule R702. -/
def framingBad (c : Config) (cls : Cls) (w : DWord) : Bool :=
  match classOf w, cls.st with
  | .stop, .scan => true
  | .start, .type => true
  | .stop, .type => true
  | .other, .type => (typeOf c w).isNone
  | .start, .payload => true
  | _, _ => false

/-- A word the test checker finds wrong (rule R665's `mism`). -/
def testMismatch (t : Tck) (w : Word) : Bool :=
  decide (1024 ≤ t.wcnt.toNat) || w.data != pat (4 * t.wcnt.toNat) || w.k != noMarks

/-- The error of a test packet at its last word (rules R665, R666): a wrong word, or a packet that did
not hold exactly 1024 words. -/
def testBad (t : Tck) (w : Word) : Bool := t.bad || testMismatch t w || t.wcnt != 1023#11

end Sys2Proof.Machine
end

