-- ==== Sys2Proof/Machine/Classifier.lean ====
section
/-!
DEFINITION. Classifier.lean: the traffic classifier `cls` (rules R521 to R538, 45_traffic_classifier.md).
-/
namespace Sys2Proof.Machine

/-- `cls.in.ready` (rule R522), from the readiness of the selected port. -/
def clsInReady (b : Cls) (portReady : Bool) : Bool := !(b.st == .payload && b.hv && !portReady)

/-- The word emitted on the selected port when a word is accepted (rules R522, R529): the held one, with
`eop` exactly when the accepted word ends the packet. -/
def clsEmit (b : Cls) (taken : Option DWord) : Option Word :=
  match taken with
  | none => none
  | some w =>
    match b.st, classOf w with
    | .payload, .stop => if b.hv then some ⟨b.hData, b.hK, true⟩ else none
    | .payload, .start => if b.hv then some ⟨b.hData, b.hK, true⟩ else none
    | .payload, .other => if b.hv then some ⟨b.hData, b.hK, false⟩ else none
    | _, _ => none

/-- The decode-error pulse (rule R533). -/
def clsError (c : Config) (b : Cls) (taken : Option DWord) : Bool :=
  match taken with
  | none => false
  | some w => framingBad c b w

/-- The next state in SCAN (rule R527). -/
def clsScan (b : Cls) (w : DWord) : Cls :=
  match classOf w with
  | .start => { b with st := .type }
  | .idle => b
  | .stop => b
  | .other => b

/-- The next state in TYPE (rule R528). -/
def clsType (c : Config) (b : Cls) (w : DWord) : Cls :=
  match classOf w with
  | .idle => b
  | .start => b
  | .stop => { b with st := .scan }
  | .other =>
    match typeOf c w with
    | some p => { b with port := p, hv := false, st := .payload }
    | none => { b with st := .scan }

/-- The next state in PAYLOAD (rule R529). -/
def clsPayload (b : Cls) (w : DWord) : Cls :=
  match classOf w with
  | .idle => b
  | .stop => { b with hv := false, st := .scan }
  | .start => { b with hv := false, st := .type }
  | .other => { b with hData := w.data, hK := w.k, hv := true }

/-- The classifier's next state (rules R526 to R530). -/
def clsNext (c : Config) (b : Cls) (taken : Option DWord) : Cls :=
  match taken with
  | none => b
  | some w =>
    match b.st with
    | .scan => clsScan b w
    | .type => clsType c b w
    | .payload => clsPayload b w

end Sys2Proof.Machine
end

