-- ==== Sys2Proof/Machine/Consumers.lean ====
section
/-!
DEFINITION. Consumers.lean: the heartbeat reader `hbr` (rules R659 to R662) and the test-sequence checker
`tck` (rules R665 to R667), 48_heartbeat_test_checker.md. Both inputs are always ready.
-/
namespace Sys2Proof.Machine

/-! ### Heartbeat reader -/

/-- The staging words with this tick's word in its place (rule R661's `W`): words after the third are
ignored. -/
def hbrStage (b : Hbr) (d : Data) : Data × Data × Data :=
  if b.cnt = 0#2 then (d, b.w1, b.w2)
  else if b.cnt = 1#2 then (b.w0, d, b.w2)
  else if b.cnt = 2#2 then (b.w0, b.w1, d)
  else (b.w0, b.w1, b.w2)

/-- `got := min(hbr.cnt + 1, 3)` (rule R661). -/
def hbrGot (b : Hbr) : BitVec 2 := if b.cnt = 3#2 then 3#2 else b.cnt + 1#2

/-- Whether the packet that ends with this word replaces the values (rule R661): at least three payload
words, and a passing CRC check. -/
def hbrAccepts (b : Hbr) (crcError : Bool) : Bool := decide (2 ≤ b.cnt.toNat) && !crcError

/-- The reader's next state (rule R661). -/
def hbrNext (b : Hbr) (inp : Option Word) (crcError : Bool) : Hbr :=
  match inp with
  | none => b
  | some w =>
    { cnt := if w.eop then 0#2 else hbrGot b
      w0 := (hbrStage b w.data).1
      w1 := (hbrStage b w.data).2.1
      w2 := (hbrStage b w.data).2.2
      hostId := if w.eop && hbrAccepts b crcError then be32 (hbrStage b w.data).1 else b.hostId
      timestamp :=
        if w.eop && hbrAccepts b crcError
        then be32 (hbrStage b w.data).2.1 ++ be32 (hbrStage b w.data).2.2 else b.timestamp }

/-! ### Test-sequence checker -/

/-- The test-error pulse (rule R666). -/
def tckError (b : Tck) (inp : Option Word) : Bool :=
  match inp with
  | none => false
  | some w => w.eop && testBad b w

/-- `min(tck.wcnt + 1, 1024)` (rule R665). -/
def tckCount (b : Tck) : BitVec 11 := if 1024 ≤ b.wcnt.toNat then 1024#11 else b.wcnt + 1#11

/-- The checker's next state (rule R665). -/
def tckNext (c : Config) (b : Tck) (inp : Option Word) : Tck :=
  match inp with
  | none => b
  | some w =>
    if w.eop then
      { wcnt := 0#11
        bad := false
        pktCnt := incAt c.testCntBits b.pktCnt
        errCnt := if testBad b w then incAt c.testCntBits b.errCnt else b.errCnt }
    else { b with bad := b.bad || testMismatch b w, wcnt := tckCount b }

end Sys2Proof.Machine
end

