-- ==== Sys2Proof/Machine/Crc.lean ====
section
/-!
DEFINITION. Crc.lean: the receive CRC checkers `chk_hb` and `chk_cmd` (rules R427, R428) and the transmit
CRC inserter `cin` (rule R429), 41_crc32.md. The CRC function itself is in Operands.lean.
-/
namespace Sys2Proof.Machine

/-! ### Receive checkers (rule R427) -/

/-- `chk.in.ready` (rule R427). -/
def chkInReady (b : Chk) (outReady : Bool) : Bool := !(b.hv && !outReady)

/-- The word the checker forwards when it accepts `w` (rule R427): the held one, with `w`'s
end-of-packet flag; nothing when none is held. -/
def chkOut (b : Chk) (taken : Option Word) : Option Word :=
  match taken with
  | none => none
  | some w => if b.hv then some ⟨b.hData, b.hK, w.eop⟩ else none

/-- The checker's CRC error pulse (rules R427, R428): in the tick it accepts a trailer that does not
bring the register to CRC_CHECK. -/
def chkError (b : Chk) (taken : Option Word) : Bool :=
  match taken with
  | none => false
  | some w => w.eop && crcBad (crcStep b.crc w.data)

/-- The checker's next state (rule R427): it holds the newest word and withholds the trailer. -/
def chkNext (b : Chk) (taken : Option Word) : Chk :=
  match taken with
  | none => b
  | some w =>
    if w.eop then { b with hv := false, crc := crcSeed }
    else { crc := crcStep b.crc w.data, hv := true, hData := w.data, hK := w.k }

/-! ### Transmit inserter (rule R429) -/

/-- `cin.out` (rule R429): the first word of a packet passes uncovered, TRAILER offers the trailer. -/
def cinOut (b : Cin) (inp : Option WWord) : Option Word :=
  match b.st with
  | .first => inp.map fun w => ⟨w.data, w.k, w.eop && !w.crcEn⟩
  | .body => inp.map fun w => ⟨w.data, w.k, false⟩
  | .bypass => inp.map fun w => ⟨w.data, w.k, w.eop⟩
  | .trailer => some ⟨crcTrailer b.crc, noMarks, true⟩

/-- `cin.in.ready` (rule R429). -/
def cinInReady (b : Cin) (outReady : Bool) : Bool :=
  match b.st with
  | .first => outReady
  | .body => outReady
  | .bypass => outReady
  | .trailer => false

/-- The inserter's next state (rule R429). -/
def cinNext (b : Cin) (inp : Option WWord) (outReady : Bool) : Cin :=
  match outReady, b.st, inp with
  | true, .first, some w =>
    { crc := crcSeed
      st := if w.crcEn then (if w.eop then .trailer else .body)
            else (if w.eop then .first else .bypass) }
  | true, .body, some w =>
    { crc := crcStep b.crc w.data, st := if w.eop then .trailer else .body }
  | true, .bypass, some w => { b with st := if w.eop then .first else .bypass }
  | true, .trailer, _ => { crc := crcSeed, st := .first }
  | _, _, _ => b

end Sys2Proof.Machine
end

