-- ==== Sys2Proof/Machine/Decoder.lean ====
section
/-!
DEFINITION. Decoder.lean: the duplicate-character decoder `dcd` (40_duplicate_char_decoder.md): rule
R405's cycle step, a two-stage pipeline that stalls as one.
-/
namespace Sys2Proof.Machine

/-- `dcd.out` (rule R405). -/
def dcdOut (b : Dcd) : Option DWord :=
  if b.s2Valid then some ⟨b.s2Data, b.s2K, b.s2Dchar, b.s2DcharK⟩ else none

/-- `dcd.in.ready := out.ready` (rule R405). -/
def dcdInReady (outReady : Bool) : Bool := outReady

/-- The decoder's next state (rule R405): stage 1 takes the word or a bubble and its 3-of-4 terms,
stage 2 publishes the OR of stage 1's terms; both hold while the consumer is not ready. -/
def dcdNext (b : Dcd) (valid : Bool) (w : RawWord) (outReady : Bool) : Dcd :=
  if outReady then
    { s1Valid := valid
      s1Data := w.data
      s1K := w.k
      s1T := dataTerms w.data
      s1Tk := markTerms w.k
      s2Valid := b.s1Valid
      s2Data := b.s1Data
      s2K := b.s1K
      s2Dchar := orData b.s1T
      s2DcharK := orMarks b.s1Tk }
  else b

end Sys2Proof.Machine
end

