-- ==== Sys2Proof/Machine/Framer.lean ====
section
/-!
DEFINITION. Framer.lean: the packet framer `frm` (rules R501 to R504, 44_packet_framer.md).
-/
namespace Sys2Proof.Machine

/-- `frm.out` (rules R501 to R504): COPY clears the word's `eop`. -/
def frmOut (st : FrmSt) (inp : Option Word) : Option Word :=
  match st with
  | .idle => none
  | .insertHeader => some startWord
  | .copy => inp.map fun w => ⟨w.data, w.k, false⟩
  | .insertFooter => some endWord

/-- `frm.in.ready` (rules R501 to R504). -/
def frmInReady (st : FrmSt) (outReady : Bool) : Bool :=
  match st with
  | .idle => false
  | .insertHeader => false
  | .copy => outReady
  | .insertFooter => false

/-- The framer's next state (rules R501 to R504). -/
def frmNext (st : FrmSt) (inp : Option Word) (outReady : Bool) : FrmSt :=
  match st with
  | .idle => if inp.isSome then .insertHeader else .idle
  | .insertHeader => if outReady then .copy else .insertHeader
  | .copy =>
    match inp with
    | some w => if outReady && w.eop then .insertFooter else .copy
    | none => .copy
  | .insertFooter => if outReady then .idle else .insertFooter

end Sys2Proof.Machine
end

