-- ==== Sys2Proof/Machine/Idle.lean ====
section
/-!
DEFINITION. Idle.lean: the idle-word inserter `idl` (rules R441 to R443, 42_idle_inserter.md).
-/
namespace Sys2Proof.Machine

/-- `idl.out` (rules R441, R442). -/
def idlOut (b : Idl) (inp : Option Word) : Option Word :=
  match b.st with
  | .writeIdle => some idleWord
  | .copy => inp

/-- `idl.in.ready` (rules R441, R442). -/
def idlInReady (b : Idl) (outReady : Bool) : Bool :=
  match b.st with
  | .writeIdle => false
  | .copy => outReady

/-- Whether COPY ends in a tick whose consumer is ready (rule R442): nothing upstream, the end of a
packet, or the countdown at zero before its decrement. -/
def idlLeavesCopy (b : Idl) (inp : Option Word) : Bool :=
  match inp with
  | none => true
  | some w => w.eop || b.cnt == 0#14

/-- The inserter's next state (rules R441 to R443). -/
def idlNext (b : Idl) (inp : Option Word) (outReady : Bool) : Idl :=
  match outReady, b.st with
  | false, _ => b
  | true, .writeIdle => { st := .copy, cnt := idleReload }
  | true, .copy =>
    { st := if idlLeavesCopy b inp then .writeIdle else .copy
      cnt := if inp.isSome && b.cnt != 0#14 then b.cnt - 1#14 else b.cnt }

end Sys2Proof.Machine
end

