-- ==== Sys2Proof/Machine/ResetValues.lean ====
section
/-!
DEFINITION. ResetValues.lean: the reset value of every state element (rules R103 to R117, R750, R753),
and the model's own values for the inputs and outputs that a state holds (log entry 6).
-/
namespace Sys2Proof.Machine

/-! ### Reset values (rules R103 to R117) -/

/-- Rule R103's reset values. -/
def dcdReset : Dcd where
  s1Valid := false
  s1Data := 0#32
  s1K := 0#4
  s1T := ⟨0#8, 0#8, 0#8, 0#8⟩
  s1Tk := ⟨false, false, false, false⟩
  s2Valid := false
  s2Data := 0#32
  s2K := 0#4
  s2Dchar := 0#8
  s2DcharK := false

/-- Rule R104's reset values. -/
def trdReset : Trd := ⟨.copy, 0#8, 0#8, false⟩

/-- Rule R105's reset values. -/
def ardReset : Ard := ⟨.copy, false⟩

/-- Rule R106's reset values. -/
def clsReset : Cls := ⟨.scan, .stream, false, 0#32, 0#4⟩

/-- Rule R107's reset values: the register at CRC_SEED. -/
def chkReset : Chk := ⟨crcSeed, false, 0#32, 0#4⟩

/-- Rule R108's reset values. -/
def hbrReset : Hbr := ⟨0#2, 0#32, 0#32, 0#32, 0#32, 0#64⟩

/-- Rule R109's reset values. -/
def tckReset : Tck := ⟨0#11, false, 0, 0⟩

/-- Rule R110's reset values; after a reset no word of the slot memory has a defined value (rules R124,
R752, 93_implementation_defined.md item 6; log entry 8). -/
def rsmReset (c : Config) : Rsm := ⟨0, 0, 0, [], List.replicate c.nSlots 0, false⟩

/-- Rule R111's reset values; after a reset no word of the command buffer has a defined value (rules R124,
R752, 93_implementation_defined.md item 6; log entry 8). -/
def wrtReset : Wrt := ⟨.idle, 0, 0, 0#12, 0, []⟩

/-- Rule R112's reset values. -/
def cinReset : Cin := ⟨.first, crcSeed⟩

/-- Rule R114's reset values: WRITE_IDLE with the countdown at IDLE_RELOAD. -/
def idlReset : Idl := ⟨.writeIdle, idleReload⟩

/-- Rule R116's reset values. -/
def cnvReset : Cnv := ⟨false, 0#32, 0#4, 0#2⟩

/-- Rule R117's reset values. -/
def tinReset : Tin := ⟨.copy, 0#3, 0#8, false⟩

/-- The conventions of 95_test_vectors.md for a tick that lists nothing: no reset, no word received,
both consumers ready, no host input (log entry 6). -/
def Inputs.quiet : Inputs where
  rst := false
  linkReady := true
  rxValid := false
  rxWord := ⟨0#32, 0#4⟩
  streamReady := true
  txReady := true
  host := HostIn.quiet

/-- The outputs before any tick has run: nothing offered, every status 0 (log entry 6). -/
def Outputs.none : Outputs where
  rxReady := false
  rxTaken := false
  streamOut := Option.none
  txOut := Option.none
  txTaken := false
  busy := false
  wrPtr := 0
  rdPtr := 0
  bufferError := false
  bufferOverflow := false
  slotRdata := 0#32
  slotLenRdata := 0
  decodeError := false
  crcErrorHb := false
  crcErrorCmd := false
  trigDetected := false
  trigRxDelay := 0#8
  trigRxLinktrig := 0#8
  ackReceived := false
  hbHostId := 0#32
  hbTimestamp := 0#64
  testError := false
  testPktCnt := 0
  testErrCnt := 0

end Sys2Proof.Machine
end

