-- ==== Sys2Proof/Machine/State.lean ====
section
/-!
DEFINITION. State.lean: the whole machine as plain data, every block of rules R103 to R117 (10_state.md)
with the input levels of the coming tick and the outputs of the last one, which a step without
arguments must hold; the reasons a step can stop; and the state after reset (rules R750 to R753,
70_reset_and_hazards.md).
-/
namespace Sys2Proof.Machine

/-! ### The machine -/

/-- The whole core. The blocks are the spec's state; `cfg` is its parameters (rule R10); `inp`,
`pending`, `out` and `ticks` are the model's own fields (log entries 2 and 6): the inputs of the
coming tick, those of the ticks after it, the outputs of the tick just run, and the number of ticks
run, which the free values are applied to. -/
structure State where
  cfg : Config
  dcd : Dcd
  trd : Trd
  ard : Ard
  cls : Cls
  chkHb : Chk
  chkCmd : Chk
  hbr : Hbr
  tck : Tck
  rsm : Rsm
  wrt : Wrt
  cin : Cin
  frm : FrmSt
  idl : Idl
  ain : AinSt
  cnv : Cnv
  tin : Tin
  inp : Inputs
  pending : List Inputs
  out : Outputs
  ticks : Nat
  deriving DecidableEq, Repr

/-- Why the machine stops with a fault. The core has no trap, no fault and no halt (rule R705), so
there is no reason, and no step ever ends so (log entry 14). -/
inductive Fault where
  deriving DecidableEq, Repr

/-- Why the machine refuses. -/
inductive Refusal where
  /-- Raised by `exec`'s arm of an instruction with no meaning yet: none is left. Safe. -/
  | notModelled (mnemonic : String)
  /-- Raised by every instruction of a core whose parameters break the constraints of rule R10:
  93_implementation_defined.md items 1 and 4 say to refuse such a configuration. Safe. -/
  | badConfiguration
  deriving DecidableEq, Repr

/-- The machine right after reset (rules R752, R753): every element at its reset value and no word of
either memory written. The parameters are those of the spec's examples (log entry 1), the inputs of
the first tick quiet and no later input pending (log entry 6). -/
def State.reset : State where
  cfg := Config.examples
  dcd := dcdReset
  trd := trdReset
  ard := ardReset
  cls := clsReset
  chkHb := chkReset
  chkCmd := chkReset
  hbr := hbrReset
  tck := tckReset
  rsm := rsmReset Config.examples
  wrt := wrtReset
  cin := cinReset
  frm := .idle
  idl := idlReset
  ain := .copy
  cnv := cnvReset
  tin := tinReset
  inp := Inputs.quiet
  pending := []
  out := Outputs.none
  ticks := 0

end Sys2Proof.Machine
end

