-- ==== Sys2Proof/Machine/Ops.lean ====
section
/-!
DEFINITION. Ops.lean: the operations shared by the blocks and the instructions: reading and writing a
word memory (rule R16), the host's reads of the two memories (rules R605, R649), the reset of a tick
(rule R750), the inputs of the next tick, and putting inputs of an instruction on the core's pins.
There is no exception entry and no return from one: the core has no trap (rules R705 to R707).
-/
namespace Sys2Proof.Machine

/-! ### Word memories (rules R16, R200, R201) -/

/-- `MemRead(M, a)` (rule R16): `none` where nothing has written the index (rule R124). -/
def memRead : Memory → Nat → Option Data
  | [], _ => none
  | (b, v) :: rest, a => if a = b then some v else memRead rest a

/-- `MemWrite(M, a, v)` (rule R16), keeping the canonical form. -/
def memWrite : Memory → Nat → Data → Memory
  | [], a, v => [(a, v)]
  | (b, w) :: rest, a, v =>
    if a < b then (a, v) :: (b, w) :: rest
    else if a = b then (a, v) :: rest
    else (b, w) :: memWrite rest a v

/-- The word the writer reads at an index of the command buffer (rule R605); a word not written since the
last reset is a free value (rule R124). -/
def bufWord (s : State) (a : Nat) : Data :=
  match memRead s.wrt.buf a with
  | some v => v
  | none => Config.freeBufWord s.ticks a

/-- The index of word `a` of slot `slot` in the slot memory (rule R200). -/
def slotIndex (c : Config) (slot a : Nat) : Nat := slot * c.slotWords + a

/-- `slot_raddr` on its log2(N_SLOTS) wires (rule R119; DESIGN CHOICE, log entry 12). -/
def slotAddr (s : State) : Nat := s.inp.host.slotRaddr % s.cfg.nSlots

/-- `slot_rdata` (rule R649): a free value at a word index outside the slot (rule R206) and at a word
not written since the last reset (rule R124). DESIGN CHOICE (log entry 23): at or beyond the slot's length and
in an unpublished slot, where item 9 of 93_implementation_defined.md and rule R657 leave any value, it is
the last word written there, as elsewhere. -/
def slotRdata (s : State) : Data :=
  if s.inp.host.wordRaddr < s.cfg.slotWords then
    match memRead s.rsm.mem (slotIndex s.cfg (slotAddr s) s.inp.host.wordRaddr) with
    | some v => v
    | none => Config.freeSlotWord s.ticks (slotAddr s) s.inp.host.wordRaddr
  else Config.freeSlotWord s.ticks (slotAddr s) s.inp.host.wordRaddr

/-- `slot_len[slot]` (rule R110). -/
def slotLen (s : State) (slot : Nat) : Nat := s.rsm.slotLen.getD slot 0

/-- `slot_len_rdata` (rule R649). -/
def slotLenRdata (s : State) : Nat := slotLen s (slotAddr s)

/-! ### Reset (rule R750) -/

/-- Every state element of every block at its reset value, and no write to either memory (rule R750). Neither
memory is reset, and a word of either, not written since the reset, reads as any value (rules R124, R752;
log entry 8): no word of a defined value is left. -/
def resetBlocks (s : State) : State :=
  { s with
    dcd := dcdReset
    trd := trdReset
    ard := ardReset
    cls := clsReset
    chkHb := chkReset
    chkCmd := chkReset
    hbr := hbrReset
    tck := tckReset
    rsm := rsmReset s.cfg
    wrt := wrtReset
    cin := cinReset
    frm := .idle
    idl := idlReset
    ain := .copy
    cnv := cnvReset
    tin := tinReset }

/-! ### The inputs of a tick (rules R119, R682) -/

/-- The next tick's inputs: the first pending ones, or quiet ones (log entry 6). -/
def nextInputs (s : State) : Inputs :=
  match s.pending with
  | [] => Inputs.quiet
  | x :: _ => x

/-- The tick's end for the model's own fields: the outputs recorded, the inputs advanced, one more tick
counted. -/
def endTick (s : State) (o : Outputs) : State :=
  { s with inp := nextInputs s, pending := s.pending.tail, out := o, ticks := s.ticks + 1 }

/-- Put host signals on the pins of the coming tick. -/
def withHost (s : State) (h : HostIn) : State := { s with inp := { s.inp with host := h } }

/-- Offer a word on `rx_in` in the coming tick. -/
def withRx (s : State) (w : RawWord) : State :=
  { s with inp := { s.inp with rxValid := true, rxWord := w } }

end Sys2Proof.Machine
end

