-- ==== Sys2Proof/Machine/Reassembler.lean ====
section
/-!
DEFINITION. Reassembler.lean: the command packet reassembler `rsm` (rules R640 to R650,
47_command_reassembler.md). Its input is always ready.
-/
namespace Sys2Proof.Machine

/-- `stored` of rule R641: the words in the slot after this one. -/
def rsmStored (c : Config) (b : Rsm) : Nat :=
  if b.wcount < c.slotWords then b.wcount + 1 else c.slotWords

/-- The slot memory after a word is stored (rule R641): an excess word is dropped. -/
def rsmMem (c : Config) (b : Rsm) (w : Word) : Memory :=
  if b.wcount < c.slotWords then memWrite b.mem (slotIndex c b.wr b.wcount) w.data else b.mem

/-- A completion that passes its CRC check (rule R642). -/
def rsmCommits (inp : Option Word) (crcError : Bool) : Bool :=
  match inp with
  | none => false
  | some w => w.eop && !crcError

/-- The overflow of a completion (rules R644, R645): the `buffer_overflow` pulse. -/
def rsmOverflow (c : Config) (b : Rsm) (inp : Option Word) (crcError : Bool) : Bool :=
  rsmCommits inp crcError && ringFull c b

/-- The word memory, the word count, the slot lengths and the write cursor after the word of this tick
(rules R641, R642, R644). -/
def rsmTake (c : Config) (b : Rsm) (inp : Option Word) (crcError : Bool) : Rsm :=
  match inp with
  | none => b
  | some w =>
    { b with
      mem := rsmMem c b w
      wcount := if w.eop then 0 else rsmStored c b
      slotLen := if w.eop && !crcError then b.slotLen.set b.wr (rsmStored c b) else b.slotLen
      wr := if (w.eop && !crcError) && !ringFull c b then (b.wr + 1) % c.nSlots else b.wr }

/-- The reassembler's next state: the word of this tick, the read-cursor write (rule R647) and the
sticky flag (rules R646, R648). -/
def rsmNext (c : Config) (b : Rsm) (inp : Option Word) (crcError : Bool) (h : HostIn) : Rsm :=
  { rsmTake c b inp crcError with
    rd := if h.rdWe then h.rdWdata % c.nSlots else b.rd
    bufferError := bufferErrorNext b.bufferError h.ackErrors (rsmOverflow c b inp crcError) }

end Sys2Proof.Machine
end

