-- ==== Sys2Proof/Machine/Trigger.lean ====
section
/-!
DEFINITION. Trigger.lean: the five blocks of 43_trigger.md: the trigger inserter `tin` (rules R460 to
R467), the trigger reader `trd` (R470 to R475), the trigger-ack inserter `ain` (R480 to R482), the
trigger-ack reader `ard` (R485 to R488) and the word-to-character converter `cnv` (R491).
-/
namespace Sys2Proof.Machine

/-! ### Trigger inserter `tin` -/

/-- `tin.out` (rules R462, R466). -/
def tinOut (b : Tin) (inp : Option Chr) : Option Chr :=
  match b.st with
  | .copy => inp
  | .send => some (trigSeq b.mode b.delay b.i.toNat)

/-- `tin.in.ready` (rules R462, R466). -/
def tinInReady (b : Tin) (outReady : Bool) : Bool :=
  match b.st with
  | .copy => outReady
  | .send => false

/-- The inserter's next state: a strobe is taken in COPY only and samples its operands (rules R465,
R467); SEND counts the characters taken (rule R466). -/
def tinNext (b : Tin) (strobe : Bool) (delay : Byte) (mode : Bool) (outReady : Bool) : Tin :=
  match b.st with
  | .copy => if strobe then { st := .send, i := 0#3, delay := delay, mode := mode } else b
  | .send =>
    if outReady then
      if b.i = 5#3 then { b with i := 0#3, st := .copy } else { b with i := b.i + 1#3 }
    else b

/-! ### Trigger reader `trd` -/

/-- The word `trd` forwards (rules R470 to R472): in COPY, any word but a trigger indicator. -/
def trdOut (b : Trd) (inp : Option DWord) : Option DWord :=
  match b.st, inp with
  | .copy, some w => if isTrig w then none else some w
  | _, _ => none

/-- `trd.in.ready` (rules R470 to R472): a word of a trigger is always taken. -/
def trdInReady (b : Trd) (inp : Option DWord) (outReady : Bool) : Bool :=
  match b.st, inp with
  | .copy, some w => if isTrig w then true else outReady
  | .copy, none => outReady
  | .readDelay, _ => true
  | .readLinktrig, _ => true

/-- The reader's next state (rules R470 to R475): the two words after an indicator are the fields
whatever they are, and the pulse is 1 for the tick after the second (rule R474). -/
def trdNext (b : Trd) (inp : Option DWord) : Trd :=
  match b.st, inp with
  | .copy, some w => { b with st := if isTrig w then .readDelay else .copy, pulse := false }
  | .readDelay, some w => { b with delay := w.dchar, st := .readLinktrig, pulse := false }
  | .readLinktrig, some w => { b with linktrig := w.dchar, st := .copy, pulse := true }
  | _, none => { b with pulse := false }

/-! ### Trigger-ack inserter `ain` -/

/-- `ain.out` (rules R480 to R482). -/
def ainOut (st : AinSt) (inp : Option Word) : Option Word :=
  match st with
  | .copy => inp
  | .ackK => some ioackWord
  | .ackData => some ackDataWord

/-- `ain.in.ready` (rules R480 to R482). -/
def ainInReady (st : AinSt) (outReady : Bool) : Bool :=
  match st with
  | .copy => outReady
  | .ackK => false
  | .ackData => false

/-- The inserter's next state: a strobe is taken in COPY only (rule R480). -/
def ainNext (st : AinSt) (strobe : Bool) (outReady : Bool) : AinSt :=
  match st with
  | .copy => if strobe then .ackK else .copy
  | .ackK => if outReady then .ackData else .ackK
  | .ackData => if outReady then .copy else .ackData

/-! ### Trigger-ack reader `ard` -/

/-- The word `ard` forwards (rules R485, R486): in COPY, any word but an ack marker. -/
def ardOut (b : Ard) (inp : Option DWord) : Option DWord :=
  match b.st, inp with
  | .copy, some w => if isIoack w then none else some w
  | _, _ => none

/-- `ard.in.ready` (rules R485, R486). -/
def ardInReady (b : Ard) (inp : Option DWord) (outReady : Bool) : Bool :=
  match b.st, inp with
  | .copy, some w => if isIoack w then true else outReady
  | .copy, none => outReady
  | .readAck, _ => true

/-- The reader's next state (rules R485 to R488): the word after a marker is taken whatever it is, and
pulses when it is the ack data word. -/
def ardNext (b : Ard) (inp : Option DWord) : Ard :=
  match b.st, inp with
  | .copy, some w => { st := if isIoack w then .readAck else .copy, pulse := false }
  | .readAck, some w => { st := .copy, pulse := isAckData w }
  | _, none => { b with pulse := false }

/-! ### Word-to-character converter `cnv` -/

/-- `cnv.out` (rule R491): the lane `idx` points at. -/
def cnvOut (b : Cnv) : Option Chr :=
  if b.full then some ⟨lane b.data b.idx.toNat, b.k.getLsbD b.idx.toNat⟩ else none

/-- `cnv.in.ready` (rule R491). -/
def cnvInReady (b : Cnv) (outReady : Bool) : Bool := !b.full || (b.idx == 3#2 && outReady)

/-- The converter after the character it offers, if any, is taken (rule R491). -/
def cnvSent (b : Cnv) (outReady : Bool) : Cnv :=
  if b.full && outReady then
    if b.idx = 3#2 then { b with full := false, idx := 0#2 } else { b with idx := b.idx + 1#2 }
  else b

/-- The converter's next state (rule R491): a word accepted in this tick overrides. -/
def cnvNext (b : Cnv) (inp : Option Word) (outReady : Bool) : Cnv :=
  match inp with
  | some w =>
    if cnvInReady b outReady then { full := true, data := w.data, k := w.k, idx := 0#2 }
    else cnvSent b outReady
  | none => cnvSent b outReady

end Sys2Proof.Machine
end

