-- ==== Sys2Proof/Machine/Writer.lean ====
section
/-!
DEFINITION. Writer.lean: the command/test packet writer `wrt` (rules R600 to R608,
46_command_test_writer.md).
-/
namespace Sys2Proof.Machine

/-- Whether `wrt.idx` is at the packet's last word (rule R605), on LEN_BITS wires. -/
def wrtAtLast (c : Config) (b : Wrt) : Bool := b.idx == decAt c.lenBits b.curLen

/-- `wrt.out` (rules R605 to R608); `word` is the command buffer's word at `wrt.idx`. -/
def wrtOut (c : Config) (b : Wrt) (word : Data) : Option WWord :=
  match b.st with
  | .idle => none
  | .cmd => some ⟨word, noMarks, wrtAtLast c b, true⟩
  | .testType => some ⟨typeTestData, noMarks, false, false⟩
  | .testData => some ⟨pat b.n.toNat, noMarks, b.n == testLast, false⟩

/-- The start strobes in IDLE (rule R603): `wrt.len` as it stands at the start of the tick. -/
def wrtStart (c : Config) (b : Wrt) (startCmd startTest : Bool) : Wrt :=
  if startCmd && b.len != 0 then
    { b with curLen := min b.len c.bufWords, idx := 0, st := .cmd }
  else if startTest then { b with n := 0#12, st := .testType }
  else b

/-- The state after the word the writer offers, if any, is taken, and the start strobes in IDLE (rules
R603, R605 to R608). -/
def wrtRun (c : Config) (b : Wrt) (startCmd startTest : Bool) (outReady : Bool) : Wrt :=
  match b.st, outReady with
  | .idle, _ => wrtStart c b startCmd startTest
  | .cmd, true =>
    if wrtAtLast c b then { b with idx := 0, st := .idle } else { b with idx := incAt c.lenBits b.idx }
  | .testType, true => { b with n := 0#12, st := .testData }
  | .testData, true =>
    if b.n = testLast then { b with n := 0#12, st := .idle } else { b with n := b.n + 4#12 }
  | _, false => b

/-- The command buffer after the host's write port (rule R601): an index outside it writes nothing. -/
def bufNext (c : Config) (buf : Memory) (we : Bool) (addr : Nat) (wdata : Data) : Memory :=
  if we && decide (addr < c.bufWords) then memWrite buf addr wdata else buf

/-- The writer's next state: its own step, the buffer write (rule R601) and the length write (rule
R602), all at the end of the tick. -/
def wrtNext (c : Config) (b : Wrt) (h : HostIn) (outReady : Bool) : Wrt :=
  { wrtRun c b h.startCmd h.startTest outReady with
    buf := bufNext c b.buf h.bufWe h.bufAddr h.bufWdata
    len := if h.lenWe then h.lenWdata % 2 ^ c.lenBits else b.len }

end Sys2Proof.Machine
end

