-- ==== Sys2Proof/Machine/Pipeline.lean ====
section
/-!
DEFINITION. Pipeline.lean: the composition of the blocks (rules R680, R681, 49_priority_arbiter_pipelines.md)
and one tick of the core in rule R682's order: the words offered forward, the readies backward, the
classifier and the checkers between, then every next state at once (rule R14).
-/
namespace Sys2Proof.Machine

/-! ### Transmit side, forward (rules R680, R682 step 1) -/

/-- `wrt.out`. -/
def txWrt (s : State) : Option WWord := wrtOut s.cfg s.wrt (bufWord s s.wrt.idx)

/-- `cin.out`. -/
def txCin (s : State) : Option Word := cinOut s.cin (txWrt s)

/-- `frm.out`. -/
def txFrm (s : State) : Option Word := frmOut s.frm (txCin s)

/-- `idl.out`. -/
def txIdl (s : State) : Option Word := idlOut s.idl (txFrm s)

/-- `ain.out`. -/
def txAin (s : State) : Option Word := ainOut s.ain (txIdl s)

/-- `cnv.out`. -/
def txCnv (s : State) : Option Chr := cnvOut s.cnv

/-- `tin.out`, the core's `tx_out`. -/
def txTin (s : State) : Option Chr := tinOut s.tin (txCnv s)

/-! ### Transmit side, backward (rule R682 step 2): each block's `in.ready` -/

/-- `tin.in.ready`. -/
def rdyTin (s : State) : Bool := tinInReady s.tin s.inp.txReady

/-- `cnv.in.ready`. -/
def rdyCnv (s : State) : Bool := cnvInReady s.cnv (rdyTin s)

/-- `ain.in.ready`. -/
def rdyAin (s : State) : Bool := ainInReady s.ain (rdyCnv s)

/-- `idl.in.ready`. -/
def rdyIdl (s : State) : Bool := idlInReady s.idl (rdyAin s)

/-- `frm.in.ready`. -/
def rdyFrm (s : State) : Bool := frmInReady s.frm (rdyIdl s)

/-- `cin.in.ready`. -/
def rdyCin (s : State) : Bool := cinInReady s.cin (rdyFrm s)

/-! ### Receive side (rules R681, R682) -/

/-- `dcd.out`. -/
def rxDcd (s : State) : Option DWord := dcdOut s.dcd

/-- `trd.out`. -/
def rxTrd (s : State) : Option DWord := trdOut s.trd (rxDcd s)

/-- `ard.out`, the classifier's input. -/
def rxArd (s : State) : Option DWord := ardOut s.ard (rxTrd s)

/-- The readiness of a classifier port (rule R682 step 2): the checkers' consumers and the test checker
are always ready (rules R640, R659, R665). -/
def rdyPort (s : State) : Port → Bool
  | .stream => s.inp.streamReady
  | .test => true
  | .heartbeat => chkInReady s.chkHb true
  | .command => chkInReady s.chkCmd true

/-- `cls.in.ready` (rule R682 step 3). -/
def rdyCls (s : State) : Bool := clsInReady s.cls (rdyPort s s.cls.port)

/-- The word the classifier accepts in this tick. -/
def clsTaken (s : State) : Option DWord := if rdyCls s then rxArd s else none

/-- The word on a classifier port (rules R522, R538): the selected port's only. -/
def rxPort (s : State) (p : Port) : Option Word :=
  if s.cls.port = p then clsEmit s.cls (clsTaken s) else none

/-- `decode_error` (rule R533). -/
def decodeError (s : State) : Bool := clsError s.cfg s.cls (clsTaken s)

/-- `chk_hb.out` (rule R682 step 4). -/
def rxHb (s : State) : Option Word := chkOut s.chkHb (rxPort s .heartbeat)

/-- `crc_error_hb` (rule R428). -/
def crcErrorHb (s : State) : Bool := chkError s.chkHb (rxPort s .heartbeat)

/-- `chk_cmd.out` (rule R682 step 4). -/
def rxCmd (s : State) : Option Word := chkOut s.chkCmd (rxPort s .command)

/-- `crc_error_cmd` (rule R428). -/
def crcErrorCmd (s : State) : Bool := chkError s.chkCmd (rxPort s .command)

/-- `ard.in.ready` (rule R682 step 5). -/
def rdyArd (s : State) : Bool := ardInReady s.ard (rxTrd s) (rdyCls s)

/-- `trd.in.ready`. -/
def rdyTrd (s : State) : Bool := trdInReady s.trd (rxDcd s) (rdyArd s)

/-- `rx_in.ready`, the decoder's `in.ready`. -/
def rdyDcd (s : State) : Bool := dcdInReady (rdyTrd s)

/-! ### Outputs of the tick (rules R118, R120) -/

/-- Every output of the tick, computed from the current state and inputs. -/
def outputs (s : State) : Outputs where
  rxReady := rdyDcd s
  rxTaken := rdyDcd s && s.inp.rxValid
  streamOut := rxPort s .stream
  txOut := txTin s
  txTaken := (txTin s).isSome && s.inp.txReady
  busy := busyFlag s.wrt
  wrPtr := s.rsm.wr
  rdPtr := s.rsm.rd
  bufferError := s.rsm.bufferError
  bufferOverflow := rsmOverflow s.cfg s.rsm (rxCmd s) (crcErrorCmd s)
  slotRdata := slotRdata s
  slotLenRdata := slotLenRdata s
  decodeError := decodeError s
  crcErrorHb := crcErrorHb s
  crcErrorCmd := crcErrorCmd s
  trigDetected := s.trd.pulse
  trigRxDelay := s.trd.delay
  trigRxLinktrig := s.trd.linktrig
  ackReceived := s.ard.pulse
  hbHostId := s.hbr.hostId
  hbTimestamp := s.hbr.timestamp
  testError := tckError s.tck (rxPort s .test)
  testPktCnt := s.tck.pktCnt
  testErrCnt := s.tck.errCnt

/-! ### One tick -/

/-- Every block's next state, all at once (rules R14, R682). -/
def runBlocks (s : State) : State :=
  { s with
    dcd := dcdNext s.dcd s.inp.rxValid s.inp.rxWord (rdyTrd s)
    trd := trdNext s.trd (rxDcd s)
    ard := ardNext s.ard (rxTrd s)
    cls := clsNext s.cfg s.cls (clsTaken s)
    chkHb := chkNext s.chkHb (rxPort s .heartbeat)
    chkCmd := chkNext s.chkCmd (rxPort s .command)
    hbr := hbrNext s.hbr (rxHb s) (crcErrorHb s)
    tck := tckNext s.cfg s.tck (rxPort s .test)
    rsm := rsmNext s.cfg s.rsm (rxCmd s) (crcErrorCmd s) s.inp.host
    wrt := wrtNext s.cfg s.wrt s.inp.host (rdyCin s)
    cin := cinNext s.cin (txWrt s) (rdyFrm s)
    frm := frmNext s.frm (txCin s) (rdyIdl s)
    idl := idlNext s.idl (txFrm s) (rdyAin s)
    ain := ainNext s.ain s.inp.host.trigAckStrobe (rdyCnv s)
    cnv := cnvNext s.cnv (txAin s) (rdyTin s)
    tin := tinNext s.tin s.inp.host.trigStrobe s.inp.host.trigDelay s.inp.host.linktrigMode
      s.inp.txReady }

/-- One tick of the core: every block's next state, or its reset value while `rst` is 1 (rule R750),
which overrides the rest; the outputs are computed from the current state in both (rule R751; log entry
16). -/
def tick (s : State) : State :=
  endTick (if s.inp.rst then resetBlocks s else runBlocks s) (outputs s)

/-! ### What an instruction answers -/

/-- The tick in which a row takes place. A configuration outside rule R10's constraints is refused
(93_implementation_defined.md items 1 and 4). A row that does not take place in this state is turned
away: no tick runs and nothing changes (log entry 4). -/
def rowTick (takesPlace : Bool) (s : State) : Host.Outcome State Fault Refusal :=
  if s.cfg.valid then
    if takesPlace then .next (tick s) else .next s
  else .refused .badConfiguration

end Sys2Proof.Machine
end

