-- ==== Sys2Proof/Machine/Occurs.lean ====
section
/-!
DEFINITION. Occurs.lean: where and when each row of the table takes place. An emitted code takes place
while the block that owns it offers it (rules R441, R466, R481, R482, R502, R504, R429, R605 to R607), a
received code while it stands at the input of the block that recognises it (rules R470, R485, R486,
R521 to R529), a block operation while its block has a word to work on, a host operation while its
signals are on the pins (rule R303). Log entry 4 says why a row is a label of a tick.
-/
namespace Sys2Proof.Machine

/-! ### Emitted codes -/

/-- START_WORD: the framer is in INSERT_HEADER (rule R502). -/
def emitsStart (s : State) : Bool := s.frm == .insertHeader

/-- END_WORD: the framer is in INSERT_FOOTER (rule R504). -/
def emitsEnd (s : State) : Bool := s.frm == .insertFooter

/-- IDLE_WORD: the idle inserter is in WRITE_IDLE (rule R441). -/
def emitsIdle (s : State) : Bool := s.idl.st == .writeIdle

/-- IOACK_WORD: the trigger-ack inserter is in ACK_K (rule R481). -/
def emitsIoack (s : State) : Bool := s.ain == .ackK

/-- ACK_DATA_WORD: the trigger-ack inserter is in ACK_DATA (rule R482). -/
def emitsAckData (s : State) : Bool := s.ain == .ackData

/-- TYPE_TEST_WORD: the writer is in TEST_TYPE (rule R606). -/
def emitsTypeTest (s : State) : Bool := s.wrt.st == .testType

/-- TYPE_WORD: the first word of a packet is `rep4(t)`: the command buffer's word 0 (rules R313, R315,
R605), or the self-test's type word (rule R606). -/
def emitsType (t : Byte) (s : State) : Bool :=
  (s.wrt.st == .cmd && s.wrt.idx == 0 && bufWord s s.wrt.idx == rep4 t)
    || (s.wrt.st == .testType && t == typeTest)

/-- PAT_WORD: the writer is in TEST_DATA at `n` (rule R607). -/
def emitsPat (n : BitVec 12) (s : State) : Bool := s.wrt.st == .testData && s.wrt.n == n

/-- CRC_TRAILER_WORD: the CRC inserter is in TRAILER and its register gives this trailer (rules R424,
R429). -/
def emitsTrailer (trailer : Data) (s : State) : Bool :=
  s.cin.st == .trailer && crcTrailer s.cin.crc == trailer

/-- A trigger sequence: the trigger inserter is in SEND with this mode and delay (rule R466). -/
def emitsTrigger (mode : Bool) (delay : Byte) (s : State) : Bool :=
  s.tin.st == .send && s.tin.mode == mode && s.tin.delay == delay

/-! ### Received codes -/

/-- The word at the classifier's input satisfies `p`. -/
def clsSees (p : DWord → Bool) (s : State) : Bool :=
  match rxArd s with
  | none => false
  | some w => p w

/-- RX_IDLE: this idle word stands at the classifier (rule R526). -/
def receivesIdle (w : RawWord) (s : State) : Bool :=
  clsSees (fun d => isIdle d && d.data == w.data && d.k == w.k) s

/-- RX_START: a start marker stands at the classifier (rules R320, R521). -/
def receivesStart (s : State) : Bool := clsSees (fun d => classOf d == .start) s

/-- RX_END: an end marker stands at the classifier (rules R321, R521). -/
def receivesEnd (s : State) : Bool := clsSees (fun d => classOf d == .stop) s

/-- RX_TRIG_28_2 and RX_TRIG_28_4: this indicator stands at the trigger reader in COPY (rules R322,
R470). -/
def receivesTrig (c : Byte) (s : State) : Bool :=
  match s.trd.st, rxDcd s with
  | .copy, some w => w.dcharK && w.dchar == c
  | _, _ => false

/-- RX_IOACK: an ack marker stands at the trigger-ack reader in COPY (rules R323, R485). -/
def receivesIoack (s : State) : Bool :=
  match s.ard.st, rxTrd s with
  | .copy, some w => isIoack w
  | _, _ => false

/-- RX_ACKDATA: the ack data word stands at the trigger-ack reader in READ_ACK (rules R323, R486). -/
def receivesAckData (s : State) : Bool :=
  match s.ard.st, rxTrd s with
  | .readAck, some w => isAckData w
  | _, _ => false

/-- A type word of this class stands at the classifier in TYPE (rules R325, R528). -/
def receivesType (p : Port) (s : State) : Bool :=
  s.cls.st == .type && clsSees (fun d => classOf d == .other && typeOf s.cfg d == some p) s

/-- A command type word with this byte stands at the classifier in TYPE (rules R10, R325). -/
def receivesCommand (t : Byte) (s : State) : Bool :=
  s.cls.st == .type
    && clsSees (fun d => classOf d == .other && typeOf s.cfg d == some .command && d.dchar == t) s

/-! ### Block operations -/

/-- DECODE: this word is offered on `rx_in` (rule R413). -/
def offersWord (w : RawWord) (s : State) : Bool := s.inp.rxValid && s.inp.rxWord == w

/-- CRC_APPEND: the CRC inserter has a word of the writer or its trailer to pass (rule R429). -/
def cinWorks (s : State) : Bool := (txWrt s).isSome || s.cin.st == .trailer

/-- CRC_CHECK: a word stands on the checker's port (rule R427). -/
def chkWorks (p : CrcPort) (s : State) : Bool :=
  match p with
  | .heartbeat => (rxPort s .heartbeat).isSome
  | .command => (rxPort s .command).isSome

/-- IDLE_INSERT: the idle inserter steps in every tick (rules R441, R442). -/
def idlWorks (_ : State) : Bool := true

/-- TRIGGER_READ: a word of a receive trigger stands at the trigger reader (rules R470 to R472). -/
def trdWorks (s : State) : Bool :=
  match s.trd.st, rxDcd s with
  | .copy, some w => isTrig w
  | _, some _ => true
  | _, none => false

/-- TRIGGER_ACK_READ: a word of a trigger-ack stands at the trigger-ack reader (rules R485, R486). -/
def ardWorks (s : State) : Bool :=
  match s.ard.st, rxTrd s with
  | .copy, some w => isIoack w
  | .readAck, some _ => true
  | _, none => false

/-- WORD_TO_CHARS: the converter holds a word or is offered one (rule R491). -/
def cnvWorks (s : State) : Bool := s.cnv.full || (txAin s).isSome

/-- FRAME_PACKET: the framer is in a packet or is offered one (rules R501 to R504). -/
def frmWorks (s : State) : Bool := s.frm != .idle || (txCin s).isSome

/-- CLASSIFY_PACKET: a word that is neither idle nor misplaced stands at the classifier (rules R527 to
R529). -/
def clsWorks (s : State) : Bool := clsSees (fun d => !isIdle d && !framingBad s.cfg s.cls d) s

/-- DROP_IDLE: an idle word stands at the classifier (rule R526). -/
def dropsIdle (s : State) : Bool := clsSees isIdle s

/-- FRAMING_ERROR: a word that breaks the packet grammar stands at the classifier (rule R533). -/
def misframed (s : State) : Bool := clsSees (framingBad s.cfg s.cls) s

/-- STORE_COMMAND_PACKET: a word stands at the reassembler (rule R641). -/
def rsmWorks (s : State) : Bool := (rxCmd s).isSome

/-- HEARTBEAT_PARSE: a word stands at the heartbeat reader (rule R661). -/
def hbrWorks (s : State) : Bool := (rxHb s).isSome

/-- TEST_CHECK: a word stands at the test checker (rule R665). -/
def tckWorks (s : State) : Bool := (rxPort s .test).isSome

/-- PRIORITY_SELECT: the transmit selection is made in every tick (rules R683, R692). -/
def arbWorks (_ : State) : Bool := true

/-! ### Host operations: the signals on the pins (rules R119, R303) -/

/-- `start_cmd`. -/
def pinStartCmd (h : HostIn) : HostIn := { h with startCmd := true }

/-- `start_test`. -/
def pinStartTest (h : HostIn) : HostIn := { h with startTest := true }

/-- `buf_we`, `buf_addr`, `buf_wdata`. -/
def pinBufWrite (a : Nat) (v : Data) (h : HostIn) : HostIn :=
  { h with bufWe := true, bufAddr := a, bufWdata := v }

/-- `len_we`, `len_wdata`. -/
def pinLenWrite (n : Nat) (h : HostIn) : HostIn := { h with lenWe := true, lenWdata := n }

/-- `rd_we`, `rd_wdata`. -/
def pinRdWrite (n : Nat) (h : HostIn) : HostIn := { h with rdWe := true, rdWdata := n }

/-- `ack_errors`. -/
def pinAckErrors (h : HostIn) : HostIn := { h with ackErrors := true }

/-- `slot_raddr`, `word_raddr`. -/
def pinSlotRead (slot word : Nat) (h : HostIn) : HostIn :=
  { h with slotRaddr := slot, wordRaddr := word }

/-- `trig_strobe`, `trig_delay`, `linktrig_mode`. -/
def pinTrigStrobe (d : Byte) (m : Bool) (h : HostIn) : HostIn :=
  { h with trigStrobe := true, trigDelay := d, linktrigMode := m }

/-- `trig_ack_strobe`. -/
def pinTrigAckStrobe (h : HostIn) : HostIn := { h with trigAckStrobe := true }

/-! ### All rows -/

/-- Whether a row takes place in the coming tick of this state. -/
def occurs (i : Instr) (s : State) : Bool :=
  match i with
  | .startWord => emitsStart s
  | .endWord => emitsEnd s
  | .idleWord => emitsIdle s
  | .ioackWord => emitsIoack s
  | .ackDataWord => emitsAckData s
  | .typeTestWord => emitsTypeTest s
  | .typeWord t => emitsType t s
  | .patWord n => emitsPat n s
  | .crcTrailerWord trailer => emitsTrailer trailer s
  | .trigSeqNormal d => emitsTrigger false d s
  | .trigSeqLinktrig d => emitsTrigger true d s
  | .rxIdle w => receivesIdle w s
  | .rxStart => receivesStart s
  | .rxEnd => receivesEnd s
  | .rxTrig282 => receivesTrig trigIndic282 s
  | .rxTrig284 => receivesTrig trigIndic284 s
  | .rxIoack => receivesIoack s
  | .rxAckdata => receivesAckData s
  | .rxTypeTest => receivesType .test s
  | .rxTypeStream => receivesType .stream s
  | .rxTypeHeartbeat => receivesType .heartbeat s
  | .rxTypeCommand03 => receivesCommand 0x03#8 s
  | .rxTypeCommand06 => receivesCommand 0x06#8 s
  | .decode w => offersWord w s
  | .crcAppend => cinWorks s
  | .crcCheck p => chkWorks p s
  | .idleInsert => idlWorks s
  | .triggerRead => trdWorks s
  | .triggerAckRead => ardWorks s
  | .wordToChars => cnvWorks s
  | .framePacket => frmWorks s
  | .classifyPacket => clsWorks s
  | .dropIdle => dropsIdle s
  | .framingError => misframed s
  | .storeCommandPacket => rsmWorks s
  | .heartbeatParse => hbrWorks s
  | .testCheck => tckWorks s
  | .prioritySelect => arbWorks s
  | .hostStartCmd => pinStartCmd s.inp.host == s.inp.host
  | .hostStartTest => pinStartTest s.inp.host == s.inp.host
  | .hostBufWrite a v => pinBufWrite a v s.inp.host == s.inp.host
  | .hostLenWrite n => pinLenWrite n s.inp.host == s.inp.host
  | .hostRdWrite n => pinRdWrite n s.inp.host == s.inp.host
  | .hostAckErrors => pinAckErrors s.inp.host == s.inp.host
  | .hostSlotRead slot word => pinSlotRead slot word s.inp.host == s.inp.host
  | .hostTrigStrobe d m => pinTrigStrobe d m s.inp.host == s.inp.host
  | .hostTrigAckStrobe => pinTrigAckStrobe s.inp.host == s.inp.host

end Sys2Proof.Machine
end

