-- ==== Sys2Proof/Machine/EmittedRows.lean ====
section
/-!
DEFINITION. EmittedRows.lean: the meanings of the codes the core emits (rules R308 to R314, R424): the tick
in which the owning block offers the code, one character or word to its consumer; while the consumer is
not ready the block keeps offering it.
-/
namespace Sys2Proof.Machine

/-- START_WORD (rules R308, R502): the framer's header step. -/
def execStartWord (s : State) : Host.Outcome State Fault Refusal :=
  rowTick (emitsStart s) s

/-- END_WORD (rules R309, R504): the framer's footer step. -/
def execEndWord (s : State) : Host.Outcome State Fault Refusal :=
  rowTick (emitsEnd s) s

/-- IDLE_WORD (rules R310, R441): the idle inserter's WRITE_IDLE step. -/
def execIdleWord (s : State) : Host.Outcome State Fault Refusal :=
  rowTick (emitsIdle s) s

/-- IOACK_WORD (rules R311, R481): the trigger-ack inserter's ACK_K step. -/
def execIoackWord (s : State) : Host.Outcome State Fault Refusal :=
  rowTick (emitsIoack s) s

/-- ACK_DATA_WORD (rules R311, R482): the trigger-ack inserter's ACK_DATA step. -/
def execAckDataWord (s : State) : Host.Outcome State Fault Refusal :=
  rowTick (emitsAckData s) s

/-- TYPE_TEST_WORD (rules R313, R606): the writer's TEST_TYPE step. -/
def execTypeTestWord (s : State) : Host.Outcome State Fault Refusal :=
  rowTick (emitsTypeTest s) s

/-- TYPE_WORD (rules R313, R605, R606): the writer's step on the type word `rep4(t)` of a packet. -/
def execTypeWord (t : Byte) (s : State) : Host.Outcome State Fault Refusal :=
  rowTick (emitsType t s) s

/-- PAT_WORD (rules R314, R607): the writer's TEST_DATA step at `n`. -/
def execPatWord (n : BitVec 12) (s : State) : Host.Outcome State Fault Refusal :=
  rowTick (emitsPat n s) s

/-- CRC_TRAILER_WORD (rules R424, R429): the CRC inserter's TRAILER step. -/
def execCrcTrailerWord (trailer : Data) (s : State) : Host.Outcome State Fault Refusal :=
  rowTick (emitsTrailer trailer s) s

/-- TRIG_SEQ_NORMAL (rules R312, R466): the trigger inserter's SEND step on one of the six characters of
the normal order; the six characters take six such ticks with the serializer ready. -/
def execTrigSeqNormal (d : Byte) (s : State) : Host.Outcome State Fault Refusal :=
  rowTick (emitsTrigger false d s) s

/-- TRIG_SEQ_LINKTRIG (rules R312, R466): as TRIG_SEQ_NORMAL, in the link-trigger order. -/
def execTrigSeqLinktrig (d : Byte) (s : State) : Host.Outcome State Fault Refusal :=
  rowTick (emitsTrigger true d s) s

end Sys2Proof.Machine
end

