-- ==== Sys2Proof/Machine/HostRows.lean ====
section
/-!
DEFINITION. HostRows.lean: the meanings of the host operations (rules R119, R303): the tick in which the
host drives the operation's signals, beside whatever else the tick's inputs hold.
-/
namespace Sys2Proof.Machine

/-- HOST_START_CMD (rules R603, R615). -/
def execHostStartCmd (s : State) : Host.Outcome State Fault Refusal :=
  rowTick true (withHost s (pinStartCmd s.inp.host))

/-- HOST_START_TEST (rules R603, R616). -/
def execHostStartTest (s : State) : Host.Outcome State Fault Refusal :=
  rowTick true (withHost s (pinStartTest s.inp.host))

/-- HOST_BUF_WRITE (rules R601, R617). -/
def execHostBufWrite (a : Nat) (v : Data) (s : State) : Host.Outcome State Fault Refusal :=
  rowTick true (withHost s (pinBufWrite a v s.inp.host))

/-- HOST_LEN_WRITE (rules R602, R617). -/
def execHostLenWrite (n : Nat) (s : State) : Host.Outcome State Fault Refusal :=
  rowTick true (withHost s (pinLenWrite n s.inp.host))

/-- HOST_RD_WRITE (rules R647, R656). -/
def execHostRdWrite (n : Nat) (s : State) : Host.Outcome State Fault Refusal :=
  rowTick true (withHost s (pinRdWrite n s.inp.host))

/-- HOST_ACK_ERRORS (rules R648, R656). -/
def execHostAckErrors (s : State) : Host.Outcome State Fault Refusal :=
  rowTick true (withHost s (pinAckErrors s.inp.host))

/-- HOST_SLOT_READ (rules R649, R657): the word and the length appear among the tick's outputs. -/
def execHostSlotRead (slot word : Nat) (s : State) : Host.Outcome State Fault Refusal :=
  rowTick true (withHost s (pinSlotRead slot word s.inp.host))

/-- HOST_TRIG_STROBE (rules R465, R467, R469). -/
def execHostTrigStrobe (d : Byte) (m : Bool) (s : State) : Host.Outcome State Fault Refusal :=
  rowTick true (withHost s (pinTrigStrobe d m s.inp.host))

/-- HOST_TRIG_ACK_STROBE (rules R480, R484). -/
def execHostTrigAckStrobe (s : State) : Host.Outcome State Fault Refusal :=
  rowTick true (withHost s (pinTrigAckStrobe s.inp.host))

end Sys2Proof.Machine
end

