-- ==== Sys2Proof/Machine/OperationRows.lean ====
section
/-!
DEFINITION. OperationRows.lean: the meanings of the block operations (rule R333): the tick in which the
block works on a word; its operands are what stands on its ports in the composed core (rules R680,
R681), and its step is the template rule's pseudocode.
-/
namespace Sys2Proof.Machine

/-- DECODE (rules R405, R413): the word is offered on `rx_in` in this tick. -/
def execDecode (w : RawWord) (s : State) : Host.Outcome State Fault Refusal :=
  rowTick true (withRx s w)

/-- CRC_APPEND (rules R429, R434): the transmit CRC inserter's step. -/
def execCrcAppend (s : State) : Host.Outcome State Fault Refusal :=
  rowTick (cinWorks s) s

/-- CRC_CHECK (rules R427, R435): the step of the checker of one port. -/
def execCrcCheck (p : CrcPort) (s : State) : Host.Outcome State Fault Refusal :=
  rowTick (chkWorks p s) s

/-- IDLE_INSERT (rules R441, R442, R449): the idle inserter's step. -/
def execIdleInsert (s : State) : Host.Outcome State Fault Refusal :=
  rowTick (idlWorks s) s

/-- TRIGGER_READ (rules R470 to R472, R476): the trigger reader's step on a word of a trigger. -/
def execTriggerRead (s : State) : Host.Outcome State Fault Refusal :=
  rowTick (trdWorks s) s

/-- TRIGGER_ACK_READ (rules R485, R486, R489): the trigger-ack reader's step on a word of an ack. -/
def execTriggerAckRead (s : State) : Host.Outcome State Fault Refusal :=
  rowTick (ardWorks s) s

/-- WORD_TO_CHARS (rules R491, R493): the converter's step. -/
def execWordToChars (s : State) : Host.Outcome State Fault Refusal :=
  rowTick (cnvWorks s) s

/-- FRAME_PACKET (rules R501 to R504, R510): the framer's step. -/
def execFramePacket (s : State) : Host.Outcome State Fault Refusal :=
  rowTick (frmWorks s) s

/-- CLASSIFY_PACKET (rules R527 to R529, R540): the classifier's step on a well-placed word. -/
def execClassifyPacket (s : State) : Host.Outcome State Fault Refusal :=
  rowTick (clsWorks s) s

/-- DROP_IDLE (rules R526, R541): the classifier's step on an idle word. -/
def execDropIdle (s : State) : Host.Outcome State Fault Refusal :=
  rowTick (dropsIdle s) s

/-- FRAMING_ERROR (rules R527 to R530, R533, R542): the classifier's step on a misplaced word. -/
def execFramingError (s : State) : Host.Outcome State Fault Refusal :=
  rowTick (misframed s) s

/-- STORE_COMMAND_PACKET (rules R641 to R646, R655): the reassembler's step on a word. -/
def execStoreCommandPacket (s : State) : Host.Outcome State Fault Refusal :=
  rowTick (rsmWorks s) s

/-- HEARTBEAT_PARSE (rules R660, R661, R664): the heartbeat reader's step on a word. -/
def execHeartbeatParse (s : State) : Host.Outcome State Fault Refusal :=
  rowTick (hbrWorks s) s

/-- TEST_CHECK (rules R665, R669): the test checker's step on a word. -/
def execTestCheck (s : State) : Host.Outcome State Fault Refusal :=
  rowTick (tckWorks s) s

/-- PRIORITY_SELECT (rules R683, R692): one tick of the transmit selection. -/
def execPrioritySelect (s : State) : Host.Outcome State Fault Refusal :=
  rowTick (arbWorks s) s

end Sys2Proof.Machine
end

