-- ==== Sys2Proof/Machine/ReceivedRows.lean ====
section
/-!
DEFINITION. ReceivedRows.lean: the meanings of the codes the core recognises (rules R320 to R325): the tick
in which the code stands at the input of the block that recognises it, and is taken there if that block
is ready.
-/
namespace Sys2Proof.Machine

/-- RX_IDLE (rules R324, R526): the classifier removes the idle word. -/
def execRxIdle (w : RawWord) (s : State) : Host.Outcome State Fault Refusal :=
  rowTick (receivesIdle w s) s

/-- RX_START (rules R320, R527 to R529): the classifier takes a start marker. -/
def execRxStart (s : State) : Host.Outcome State Fault Refusal :=
  rowTick (receivesStart s) s

/-- RX_END (rules R321, R527 to R530): the classifier takes an end marker. -/
def execRxEnd (s : State) : Host.Outcome State Fault Refusal :=
  rowTick (receivesEnd s) s

/-- RX_TRIG_28_2 (rules R322, R470): the trigger reader takes the indicator. -/
def execRxTrig282 (s : State) : Host.Outcome State Fault Refusal :=
  rowTick (receivesTrig trigIndic282 s) s

/-- RX_TRIG_28_4 (rules R322, R470): the trigger reader takes the indicator. -/
def execRxTrig284 (s : State) : Host.Outcome State Fault Refusal :=
  rowTick (receivesTrig trigIndic284 s) s

/-- RX_IOACK (rules R323, R485): the trigger-ack reader takes the marker word. -/
def execRxIoack (s : State) : Host.Outcome State Fault Refusal :=
  rowTick (receivesIoack s) s

/-- RX_ACKDATA (rules R323, R486, R488): the trigger-ack reader takes the data word and pulses. -/
def execRxAckdata (s : State) : Host.Outcome State Fault Refusal :=
  rowTick (receivesAckData s) s

/-- RX_TYPE_TEST (rules R325, R528): the classifier selects the test port. -/
def execRxTypeTest (s : State) : Host.Outcome State Fault Refusal :=
  rowTick (receivesType .test s) s

/-- RX_TYPE_STREAM (rules R325, R528): the classifier selects the stream port. -/
def execRxTypeStream (s : State) : Host.Outcome State Fault Refusal :=
  rowTick (receivesType .stream s) s

/-- RX_TYPE_HEARTBEAT (rules R325, R528): the classifier selects the heartbeat port. -/
def execRxTypeHeartbeat (s : State) : Host.Outcome State Fault Refusal :=
  rowTick (receivesType .heartbeat s) s

/-- RX_TYPE_COMMAND_03 (rules R10, R325, R528): the classifier selects the command port. -/
def execRxTypeCommand03 (s : State) : Host.Outcome State Fault Refusal :=
  rowTick (receivesCommand 0x03#8 s) s

/-- RX_TYPE_COMMAND_06 (rules R10, R325, R528): the classifier selects the command port. -/
def execRxTypeCommand06 (s : State) : Host.Outcome State Fault Refusal :=
  rowTick (receivesCommand 0x06#8 s) s

end Sys2Proof.Machine
end

