-- ==== Sys2Proof/Machine/Dispatch.lean ====
section
/-! DEFINITION. Dispatch.lean: one meaning per row of spec/opcode_table.json. -/
namespace Sys2Proof.Machine

def exec (i : Instr) (s : State) : Host.Outcome State Fault Refusal :=
  match i with
  | .startWord => Sys2Proof.Machine.execStartWord s
  | .endWord => Sys2Proof.Machine.execEndWord s
  | .idleWord => Sys2Proof.Machine.execIdleWord s
  | .ioackWord => Sys2Proof.Machine.execIoackWord s
  | .ackDataWord => Sys2Proof.Machine.execAckDataWord s
  | .typeTestWord => Sys2Proof.Machine.execTypeTestWord s
  | .typeWord t => Sys2Proof.Machine.execTypeWord t s
  | .patWord n => Sys2Proof.Machine.execPatWord n s
  | .crcTrailerWord trailer => Sys2Proof.Machine.execCrcTrailerWord trailer s
  | .trigSeqNormal delay => Sys2Proof.Machine.execTrigSeqNormal delay s
  | .trigSeqLinktrig delay => Sys2Proof.Machine.execTrigSeqLinktrig delay s
  | .rxIdle w => Sys2Proof.Machine.execRxIdle w s
  | .rxStart => Sys2Proof.Machine.execRxStart s
  | .rxEnd => Sys2Proof.Machine.execRxEnd s
  | .rxTrig282 => Sys2Proof.Machine.execRxTrig282 s
  | .rxTrig284 => Sys2Proof.Machine.execRxTrig284 s
  | .rxIoack => Sys2Proof.Machine.execRxIoack s
  | .rxAckdata => Sys2Proof.Machine.execRxAckdata s
  | .rxTypeTest => Sys2Proof.Machine.execRxTypeTest s
  | .rxTypeStream => Sys2Proof.Machine.execRxTypeStream s
  | .rxTypeHeartbeat => Sys2Proof.Machine.execRxTypeHeartbeat s
  | .rxTypeCommand03 => Sys2Proof.Machine.execRxTypeCommand03 s
  | .rxTypeCommand06 => Sys2Proof.Machine.execRxTypeCommand06 s
  | .decode w => Sys2Proof.Machine.execDecode w s
  | .crcAppend => Sys2Proof.Machine.execCrcAppend s
  | .crcCheck p => Sys2Proof.Machine.execCrcCheck p s
  | .idleInsert => Sys2Proof.Machine.execIdleInsert s
  | .triggerRead => Sys2Proof.Machine.execTriggerRead s
  | .triggerAckRead => Sys2Proof.Machine.execTriggerAckRead s
  | .wordToChars => Sys2Proof.Machine.execWordToChars s
  | .framePacket => Sys2Proof.Machine.execFramePacket s
  | .classifyPacket => Sys2Proof.Machine.execClassifyPacket s
  | .dropIdle => Sys2Proof.Machine.execDropIdle s
  | .framingError => Sys2Proof.Machine.execFramingError s
  | .storeCommandPacket => Sys2Proof.Machine.execStoreCommandPacket s
  | .heartbeatParse => Sys2Proof.Machine.execHeartbeatParse s
  | .testCheck => Sys2Proof.Machine.execTestCheck s
  | .prioritySelect => Sys2Proof.Machine.execPrioritySelect s
  | .hostStartCmd => Sys2Proof.Machine.execHostStartCmd s
  | .hostStartTest => Sys2Proof.Machine.execHostStartTest s
  | .hostBufWrite addr wdata => Sys2Proof.Machine.execHostBufWrite addr wdata s
  | .hostLenWrite len => Sys2Proof.Machine.execHostLenWrite len s
  | .hostRdWrite rd => Sys2Proof.Machine.execHostRdWrite rd s
  | .hostAckErrors => Sys2Proof.Machine.execHostAckErrors s
  | .hostSlotRead slot word => Sys2Proof.Machine.execHostSlotRead slot word s
  | .hostTrigStrobe delay linktrig => Sys2Proof.Machine.execHostTrigStrobe delay linktrig s
  | .hostTrigAckStrobe => Sys2Proof.Machine.execHostTrigAckStrobe s

end Sys2Proof.Machine
end

