-- ==== Sys2Proof/WellFormed.lean ====
section
/-!
DEFINITION. WellFormed.lean: which instructions are ones of the table, for a given configuration: the
constraints the table's rows and the port widths of rule R119 put on operands.
-/
namespace Sys2Proof

/-- An operand of an instruction is one its row admits. -/
def wellFormed (c : Config) : Instr → Bool
  -- R313: t is TYPE_TEST or one of the parameters of rule R10
  | .typeWord t =>
    decide (t = typeTest) || decide (t = c.typeStream) || decide (t = c.typeHeartbeat)
      || c.typeCommand.contains t
  -- R314: n in 0, 4, ..., 0xFFC
  | .patWord n => decide (n.toNat % 4 = 0)
  -- R324: raw lane 0 is 0xBC and k[0] is 1
  | .rxIdle w => Machine.isIdleRaw w.data w.k
  -- R10: the two command rows stand for the default members of TYPE_COMMAND
  | .rxTypeCommand03 => Machine.typeOfChar c 0x03#8 false == some .command
  | .rxTypeCommand06 => Machine.typeOfChar c 0x06#8 false == some .command
  -- R119: widths of the ports
  | .hostBufWrite a _ => decide (a < 2 ^ c.bufAddrBits)
  | .hostLenWrite n => decide (n < 2 ^ c.lenBits)
  | .hostRdWrite n => decide (n < c.nSlots)
  | .hostSlotRead s w => decide (s < c.nSlots) && decide (w < 2 ^ c.wordAddrBits)
  | .startWord | .endWord | .idleWord | .ioackWord | .ackDataWord | .typeTestWord
  | .crcTrailerWord _ | .trigSeqNormal _ | .trigSeqLinktrig _ | .rxStart | .rxEnd | .rxTrig282
  | .rxTrig284 | .rxIoack | .rxAckdata | .rxTypeTest | .rxTypeStream | .rxTypeHeartbeat
  | .decode _ | .crcAppend | .crcCheck _ | .idleInsert | .triggerRead | .triggerAckRead
  | .wordToChars | .framePacket | .classifyPacket | .dropIdle | .framingError
  | .storeCommandPacket | .heartbeatParse | .testCheck | .prioritySelect | .hostStartCmd
  | .hostStartTest | .hostAckErrors | .hostTrigStrobe _ _ | .hostTrigAckStrobe => true

end Sys2Proof
end

