-- ==== Sys2Proof/Decode.lean ====
section
/-!
DEFINITION. Decode.lean: the decoder and, after it, the encoder. Codes of different blocks share
their bits (0x001 is the ack data character after an ack marker and the stream type code after a
start marker; 0x5C with its marker opens a transmit sequence and a receive trigger), so a code is
read AT A PLACE: the block output that emits it or the block input that recognises it (rules R302,
R317 to R325, R333; log entry 5). Decoding is total: a code that is no row at its place is refused by
name.
-/
namespace Sys2Proof

/-- Where a code stands: the block output that emits it, or the block input that recognises it. -/
inductive Place where
  /-- `tin.out` in SEND (rule R466). -/
  | triggerOut
  /-- `ain.out` in ACK_K or ACK_DATA (rules R481, R482). -/
  | ackOut
  /-- `idl.out` in WRITE_IDLE (rule R441). -/
  | idleOut
  /-- `frm.out` in INSERT_HEADER or INSERT_FOOTER (rules R502, R504). -/
  | framerOut
  /-- `cin.out` in TRAILER (rule R429). -/
  | trailerOut
  /-- `wrt.out` in TEST_TYPE (rule R606). -/
  | testTypeOut
  /-- `wrt.out` on the first word of a packet (rules R315, R605, R606). -/
  | typeOut
  /-- `wrt.out` in TEST_DATA with the counter at `n` (rule R607). -/
  | patternOut (n : BitVec 12)
  /-- `trd.in` in COPY (rule R470). -/
  | readerIn
  /-- `ard.in` in COPY (rule R485). -/
  | ackReaderIn
  /-- `ard.in` in READ_ACK (rule R486). -/
  | ackDataIn
  /-- `cls.in` in any state: idle words and markers (rules R521, R526). -/
  | classifierIn
  /-- `cls.in` in TYPE, on a word that is no idle word and no marker (rule R528). -/
  | typeIn
  /-- The host inputs (rule R303). -/
  | hostPort
  /-- A block's stream operation (rule R333). -/
  | block
  deriving DecidableEq, Repr

/-- Why a code is no row at its place. -/
inductive Reject where
  /-- The code's format is not one that stands at this place. -/
  | wrongFormat
  /-- The bits are none of the fixed codes of this place. -/
  | notThisCode
  /-- A control character to which no row of this place gives a meaning (rule R306). -/
  | reservedCharacter
  /-- A type byte of no class, or a type word with its marker set (rule R325). -/
  | unknownType
  deriving DecidableEq, Repr

/-- The receive code of a corrected character no rule of this place names (rules R306, R330). -/
def rejectChar (b : BitVec 9) : Except Reject Instr :=
  if b.getLsbD 8 then .error .reservedCharacter else .error .notThisCode

/-- A type word by its corrected character (rule R325). -/
def decodeType (c : Config) (b : BitVec 9) : Except Reject Instr :=
  match Machine.typeOfChar c (BitVec.extractLsb' 0 8 b) (b.getLsbD 8) with
  | some .test => .ok .rxTypeTest
  | some .stream => .ok .rxTypeStream
  | some .heartbeat => .ok .rxTypeHeartbeat
  | some .command =>
    if b = 0x003#9 then .ok .rxTypeCommand03
    else if b = 0x006#9 then .ok .rxTypeCommand06
    else .error .notThisCode
  | none => .error .unknownType

/-- The host operation of one tick's host signals: the first asserted strobe in the table's order, and
the slot read, which has no strobe (rule R649), when none is asserted. -/
def decodeHost (h : HostIn) : Instr :=
  if h.startCmd then .hostStartCmd
  else if h.startTest then .hostStartTest
  else if h.bufWe then .hostBufWrite h.bufAddr h.bufWdata
  else if h.lenWe then .hostLenWrite h.lenWdata
  else if h.rdWe then .hostRdWrite h.rdWdata
  else if h.ackErrors then .hostAckErrors
  else if h.trigStrobe then .hostTrigStrobe h.trigDelay h.linktrigMode
  else if h.trigAckStrobe then .hostTrigAckStrobe
  else .hostSlotRead h.slotRaddr h.wordRaddr

/-- The row of a named block operation. -/
def decodeOperation : Operation → Instr
  | .decode w => .decode w
  | .crcAppend => .crcAppend
  | .crcCheck p => .crcCheck p
  | .idleInsert => .idleInsert
  | .triggerRead => .triggerRead
  | .triggerAckRead => .triggerAckRead
  | .wordToChars => .wordToChars
  | .framePacket => .framePacket
  | .classifyPacket => .classifyPacket
  | .dropIdle => .dropIdle
  | .framingError => .framingError
  | .storeCommandPacket => .storeCommandPacket
  | .heartbeatParse => .heartbeatParse
  | .testCheck => .testCheck
  | .prioritySelect => .prioritySelect

/-- The six characters of a trigger sequence (rule R312): its delay is read from character 3 and all
six characters are checked. -/
def decodeSequence (b : BitVec 54) : Except Reject Instr :=
  let d : Byte := BitVec.extractLsb' 0 8 (Machine.seqChr b 3)
  if b = Machine.seqBits false d then .ok (.trigSeqNormal d)
  else if b = Machine.seqBits true d then .ok (.trigSeqLinktrig d)
  else .error .notThisCode

/-- The fixed word of a Word as `WORD36` bits (rule R301); the `eop` flag is outside the 36. -/
def wordBits (w : Word) : BitVec 36 := Machine.word36 w.data w.k

/-- Decode: the row a code is, at its place. -/
def decode (c : Config) (p : Place) (code : Code) : Except Reject Instr :=
  match p, code with
  | .triggerOut, .char9x6 b => decodeSequence b
  | .ackOut, .word36 b =>
    if b = wordBits Machine.ioackWord then .ok .ioackWord
    else if b = wordBits Machine.ackDataWord then .ok .ackDataWord
    else .error .notThisCode
  | .idleOut, .word36 b =>
    if b = wordBits Machine.idleWord then .ok .idleWord else .error .notThisCode
  | .framerOut, .word36 b =>
    if b = wordBits Machine.startWord then .ok .startWord
    else if b = wordBits Machine.endWord then .ok .endWord
    else .error .notThisCode
  | .trailerOut, .word36 b =>
    if Machine.marks36 b = Machine.noMarks then .ok (.crcTrailerWord (Machine.data36 b))
    else .error .notThisCode
  | .testTypeOut, .word36 b =>
    if b = Machine.word36 Machine.typeTestData Machine.noMarks then .ok .typeTestWord
    else .error .notThisCode
  | .typeOut, .word36 b =>
    let t := Machine.lane (Machine.data36 b) 0
    if b = Machine.word36 (Machine.rep4 t) Machine.noMarks then
      if wellFormed c (.typeWord t) then .ok (.typeWord t) else .error .unknownType
    else .error .notThisCode
  | .patternOut n, .word36 b =>
    if b = Machine.word36 (Machine.pat n.toNat) Machine.noMarks ∧ wellFormed c (.patWord n)
    then .ok (.patWord n) else .error .notThisCode
  | .readerIn, .dchar9 b =>
    if b = Machine.chr9 Machine.trigIndic282 true then .ok .rxTrig282
    else if b = Machine.chr9 Machine.trigIndic284 true then .ok .rxTrig284
    else rejectChar b
  | .ackReaderIn, .dchar9 b =>
    if b = Machine.chr9 Machine.ioAck true then .ok .rxIoack else rejectChar b
  | .ackDataIn, .dchar9 b =>
    if b = Machine.chr9 Machine.ackByte false then .ok .rxAckdata else rejectChar b
  | .classifierIn, .word36 b =>
    if Machine.isIdleRaw (Machine.data36 b) (Machine.marks36 b)
    then .ok (.rxIdle ⟨Machine.data36 b, Machine.marks36 b⟩) else .error .notThisCode
  | .classifierIn, .dchar9 b =>
    if b = Machine.chr9 Machine.pakStart true then .ok .rxStart
    else if b = Machine.chr9 Machine.pakEnd true then .ok .rxEnd
    else rejectChar b
  | .typeIn, .dchar9 b => decodeType c b
  | .hostPort, .host h => .ok (decodeHost h)
  | .block, .operation op => .ok (decodeOperation op)
  | _, _ => .error .wrongFormat

/-! ### The encoder -/

/-- The place an instruction's code stands at. -/
def placeOf : Instr → Place
  | .startWord => .framerOut
  | .endWord => .framerOut
  | .idleWord => .idleOut
  | .ioackWord => .ackOut
  | .ackDataWord => .ackOut
  | .typeTestWord => .testTypeOut
  | .typeWord _ => .typeOut
  | .patWord n => .patternOut n
  | .crcTrailerWord _ => .trailerOut
  | .trigSeqNormal _ => .triggerOut
  | .trigSeqLinktrig _ => .triggerOut
  | .rxIdle _ => .classifierIn
  | .rxStart => .classifierIn
  | .rxEnd => .classifierIn
  | .rxTrig282 => .readerIn
  | .rxTrig284 => .readerIn
  | .rxIoack => .ackReaderIn
  | .rxAckdata => .ackDataIn
  | .rxTypeTest => .typeIn
  | .rxTypeStream => .typeIn
  | .rxTypeHeartbeat => .typeIn
  | .rxTypeCommand03 => .typeIn
  | .rxTypeCommand06 => .typeIn
  | .decode _ => .block
  | .crcAppend => .block
  | .crcCheck _ => .block
  | .idleInsert => .block
  | .triggerRead => .block
  | .triggerAckRead => .block
  | .wordToChars => .block
  | .framePacket => .block
  | .classifyPacket => .block
  | .dropIdle => .block
  | .framingError => .block
  | .storeCommandPacket => .block
  | .heartbeatParse => .block
  | .testCheck => .block
  | .prioritySelect => .block
  | .hostStartCmd => .hostPort
  | .hostStartTest => .hostPort
  | .hostBufWrite _ _ => .hostPort
  | .hostLenWrite _ => .hostPort
  | .hostRdWrite _ => .hostPort
  | .hostAckErrors => .hostPort
  | .hostSlotRead _ _ => .hostPort
  | .hostTrigStrobe _ _ => .hostPort
  | .hostTrigAckStrobe => .hostPort

/-- Encode: the code of an instruction, from the table's encodings. A parametrised type code is the
configuration's (rule R10). The bits of PAT_WORD hold `n` modulo 256 only: the place holds `n`. -/
def encode (c : Config) : Instr → Code
  | .startWord => .word36 (wordBits Machine.startWord)
  | .endWord => .word36 (wordBits Machine.endWord)
  | .idleWord => .word36 (wordBits Machine.idleWord)
  | .ioackWord => .word36 (wordBits Machine.ioackWord)
  | .ackDataWord => .word36 (wordBits Machine.ackDataWord)
  | .typeTestWord => .word36 (Machine.word36 Machine.typeTestData Machine.noMarks)
  | .typeWord t => .word36 (Machine.word36 (Machine.rep4 t) Machine.noMarks)
  | .patWord n => .word36 (Machine.word36 (Machine.pat n.toNat) Machine.noMarks)
  | .crcTrailerWord trailer => .word36 (Machine.word36 trailer Machine.noMarks)
  | .trigSeqNormal d => .char9x6 (Machine.seqBits false d)
  | .trigSeqLinktrig d => .char9x6 (Machine.seqBits true d)
  | .rxIdle w => .word36 (Machine.word36 w.data w.k)
  | .rxStart => .dchar9 (Machine.chr9 Machine.pakStart true)
  | .rxEnd => .dchar9 (Machine.chr9 Machine.pakEnd true)
  | .rxTrig282 => .dchar9 (Machine.chr9 Machine.trigIndic282 true)
  | .rxTrig284 => .dchar9 (Machine.chr9 Machine.trigIndic284 true)
  | .rxIoack => .dchar9 (Machine.chr9 Machine.ioAck true)
  | .rxAckdata => .dchar9 (Machine.chr9 Machine.ackByte false)
  | .rxTypeTest => .dchar9 (Machine.chr9 typeTest false)
  | .rxTypeStream => .dchar9 (Machine.chr9 c.typeStream false)
  | .rxTypeHeartbeat => .dchar9 (Machine.chr9 c.typeHeartbeat false)
  | .rxTypeCommand03 => .dchar9 0x003#9
  | .rxTypeCommand06 => .dchar9 0x006#9
  | .decode w => .operation (.decode w)
  | .crcAppend => .operation .crcAppend
  | .crcCheck p => .operation (.crcCheck p)
  | .idleInsert => .operation .idleInsert
  | .triggerRead => .operation .triggerRead
  | .triggerAckRead => .operation .triggerAckRead
  | .wordToChars => .operation .wordToChars
  | .framePacket => .operation .framePacket
  | .classifyPacket => .operation .classifyPacket
  | .dropIdle => .operation .dropIdle
  | .framingError => .operation .framingError
  | .storeCommandPacket => .operation .storeCommandPacket
  | .heartbeatParse => .operation .heartbeatParse
  | .testCheck => .operation .testCheck
  | .prioritySelect => .operation .prioritySelect
  | .hostStartCmd => .host { HostIn.quiet with startCmd := true }
  | .hostStartTest => .host { HostIn.quiet with startTest := true }
  | .hostBufWrite a v => .host { HostIn.quiet with bufWe := true, bufAddr := a, bufWdata := v }
  | .hostLenWrite n => .host { HostIn.quiet with lenWe := true, lenWdata := n }
  | .hostRdWrite n => .host { HostIn.quiet with rdWe := true, rdWdata := n }
  | .hostAckErrors => .host { HostIn.quiet with ackErrors := true }
  | .hostSlotRead s w => .host { HostIn.quiet with slotRaddr := s, wordRaddr := w }
  | .hostTrigStrobe d m =>
    .host { HostIn.quiet with trigStrobe := true, trigDelay := d, linktrigMode := m }
  | .hostTrigAckStrobe => .host { HostIn.quiet with trigAckStrobe := true }

/-! ### The host's table words -/

/-- The first place of a list at which a code is a row. -/
def decodeFirst (c : Config) (code : Code) : List Place → Option Instr
  | [] => none
  | p :: ps =>
    match decode c p code with
    | .ok i => some i
    | .error _ => decodeFirst c code ps

/-- The places a corrected character is tried at when only its bits are given (log entry 5). -/
def charPlaces : List Place := [.readerIn, .ackReaderIn, .classifierIn, .typeIn, .ackDataIn]

/-- The places a word is tried at when only its bits are given: the fixed words first (log entry 5). -/
def wordPlaces (b : BitVec 36) : List Place :=
  [.framerOut, .ackOut, .idleOut, .testTypeOut, .classifierIn, .typeOut,
    .patternOut (BitVec.zeroExtend 12 (Machine.lane (Machine.data36 b) 0)), .trailerOut]

/-- The instruction the decoder reads from a table row's bits: up to two bytes hold a corrected
character, up to five a word, up to seven a trigger sequence (rules R300, R301, R333). Bits above the
format must be zero. Host and block operations have no bits (rule R303). -/
def decodeTableWord (nbits w : Nat) : Option Instr :=
  if nbits ≤ 8 then none
  else if nbits ≤ 16 then
    if w < 2 ^ 9 then decodeFirst Config.examples (.dchar9 (BitVec.ofNat 9 w)) charPlaces else none
  else if nbits ≤ 40 then
    if w < 2 ^ 36 then
      decodeFirst Config.examples (.word36 (BitVec.ofNat 36 w)) (wordPlaces (BitVec.ofNat 36 w))
    else none
  else if nbits ≤ 56 then
    if w < 2 ^ 54 then decodeFirst Config.examples (.char9x6 (BitVec.ofNat 54 w)) [.triggerOut] else none
  else none

end Sys2Proof
end

