-- ==== Sys2Proof/Machine/Fetch.lean ====
section
/-!
DEFINITION. Fetch.lean: which row a tick is labelled with. The core fetches no instructions (rule R217) and
has no program counter (rule R100): what stands in it decides. A received code at the decoder's output
is read first, at the block it has reached; then the host's signals; then a word offered on `rx_in`;
then the content offered on the transmit side, highest class first (rule R683). In every state
PRIORITY_SELECT takes place. All rows that take place in a state name the same tick (log entry 4).
-/
namespace Sys2Proof.Machine

/-- The corrected character of a word as `DCHAR9` bits (rule R302). -/
def dchar9 (w : DWord) : BitVec 9 := chr9 w.dchar w.dcharK

/-- The row of a word that no receive row names at the classifier. -/
def plainWord (s : State) (w : DWord) : Instr :=
  if framingBad s.cfg s.cls w then .framingError else .classifyPacket

/-- The row of a word at the classifier (rules R521, R526 to R529). -/
def fetchClassified (s : State) (w : DWord) : Instr :=
  match decode s.cfg .classifierIn (.word36 (word36 w.data w.k)) with
  | .ok i => i
  | .error _ =>
    match decode s.cfg .classifierIn (.dchar9 (dchar9 w)) with
    | .ok i => i
    | .error _ =>
      if s.cls.st = .type then
        match decode s.cfg .typeIn (.dchar9 (dchar9 w)) with
        | .ok i => i
        | .error _ => plainWord s w
      else plainWord s w

/-- The row of a word at the trigger-ack reader (rules R485, R486). -/
def fetchAck (s : State) (w : DWord) : Instr :=
  match s.ard.st with
  | .readAck =>
    match decode s.cfg .ackDataIn (.dchar9 (dchar9 w)) with
    | .ok i => i
    | .error _ => .triggerAckRead
  | .copy =>
    match decode s.cfg .ackReaderIn (.dchar9 (dchar9 w)) with
    | .ok i => i
    | .error _ => fetchClassified s w

/-- The row of the word at the decoder's output (rules R470 to R472). -/
def fetchReceived (s : State) (w : DWord) : Instr :=
  match s.trd.st with
  | .readDelay => .triggerRead
  | .readLinktrig => .triggerRead
  | .copy =>
    match decode s.cfg .readerIn (.dchar9 (dchar9 w)) with
    | .ok i => i
    | .error _ => fetchAck s w

/-- A host strobe or write enable is asserted. -/
def hostActs (h : HostIn) : Bool :=
  h.startCmd || h.startTest || h.bufWe || h.lenWe || h.rdWe || h.ackErrors || h.trigStrobe
    || h.trigAckStrobe

/-- The code the transmit side offers, highest class first, and the place it stands at (rule R683). -/
def offeredCode (s : State) : Option (Place × Code) :=
  if s.tin.st = .send then some (.triggerOut, .char9x6 (seqBits s.tin.mode s.tin.delay))
  else if s.ain = .ackK then some (.ackOut, .word36 (wordBits ioackWord))
  else if s.ain = .ackData then some (.ackOut, .word36 (wordBits ackDataWord))
  else if s.idl.st = .writeIdle then some (.idleOut, .word36 (wordBits idleWord))
  else if s.frm = .insertHeader then some (.framerOut, .word36 (wordBits startWord))
  else if s.frm = .insertFooter then some (.framerOut, .word36 (wordBits endWord))
  else if s.cin.st = .trailer then
    some (.trailerOut, .word36 (word36 (crcTrailer s.cin.crc) noMarks))
  else
    match s.wrt.st with
    | .testType => some (.testTypeOut, .word36 (word36 typeTestData noMarks))
    | .testData => some (.patternOut s.wrt.n, .word36 (word36 (pat s.wrt.n.toNat) noMarks))
    | .cmd =>
      if s.wrt.idx = 0 then some (.typeOut, .word36 (word36 (bufWord s s.wrt.idx) noMarks)) else none
    | .idle => none

/-- The row of the transmit side's content; the selection itself when no code of the table is offered. -/
def fetchOffered (s : State) : Instr :=
  match offeredCode s with
  | none => .prioritySelect
  | some (p, c) =>
    match decode s.cfg p c with
    | .ok i => i
    | .error _ => .prioritySelect

/-- The row the coming tick is labelled with. -/
def fetch (s : State) : Instr :=
  match rxDcd s with
  | some w => fetchReceived s w
  | none =>
    if hostActs s.inp.host then decodeHost s.inp.host
    else if s.inp.rxValid then .decode s.inp.rxWord
    else fetchOffered s

/-! ### Placing a row where the next step fetches it -/

/-- A word in the decoder's second stage (rule R405), where the receive blocks read it. -/
def holdWord (s : State) (w : RawWord) : State :=
  { s with
    dcd := { s.dcd with
      s2Valid := true, s2Data := w.data, s2K := w.k, s2Dchar := voteChar w.data, s2DcharK := voteMark w.k } }

/-- Four copies of a character in the decoder's second stage. -/
def holdChar (s : State) (c : Byte) (k : Bool) : State :=
  holdWord s ⟨rep4 c, if k then allMarks else noMarks⟩

/-- Both readers transparent, so that the word reaches the classifier. -/
def openReaders (s : State) : State :=
  { s with trd := { s.trd with st := .copy }, ard := { s.ard with st := .copy } }

/-- No received word and no input that a fetch would read first. -/
def quietFront (s : State) : State :=
  { s with
    dcd := { s.dcd with s2Valid := false }
    inp := { s.inp with rxValid := false, host := HostIn.quiet } }

/-- The trigger inserter transparent. -/
def clearTin (s : State) : State := { quietFront s with tin := { s.tin with st := .copy } }

/-- The stages after the idle inserter transparent. -/
def clearAin (s : State) : State := { clearTin s with ain := .copy }

/-- The stages after the framer transparent. -/
def clearIdl (s : State) : State := { clearAin s with idl := { s.idl with st := .copy } }

/-- The stages after the CRC inserter transparent. -/
def clearFrm (s : State) : State := { clearIdl s with frm := .copy }

/-- The stages after the writer transparent, the CRC inserter before a packet. -/
def clearCin (s : State) : State := { clearFrm s with cin := { s.cin with st := .first } }

/-- The type position of the classifier. -/
def atType (s : State) : State := { openReaders s with cls := { s.cls with st := .type } }

/-- A state in which a row takes place and the next step fetches it: the code stands where its block
reads or emits it, and the blocks after it let it through (log entry 5). -/
def place (s : State) : Instr → State
  | .startWord => { clearIdl s with frm := .insertHeader }
  | .endWord => { clearIdl s with frm := .insertFooter }
  | .idleWord => { clearAin s with idl := { s.idl with st := .writeIdle } }
  | .ioackWord => { clearTin s with ain := .ackK }
  | .ackDataWord => { clearTin s with ain := .ackData }
  | .typeTestWord => { clearCin s with wrt := { s.wrt with st := .testType } }
  | .typeWord t =>
    { clearCin s with wrt := { s.wrt with st := .cmd, idx := 0, buf := memWrite s.wrt.buf 0 (rep4 t) } }
  | .patWord n => { clearCin s with wrt := { s.wrt with st := .testData, n := n } }
  | .crcTrailerWord trailer => { clearFrm s with cin := ⟨.trailer, rev32 trailer⟩ }
  | .trigSeqNormal d => { quietFront s with tin := ⟨.send, 0#3, d, false⟩ }
  | .trigSeqLinktrig d => { quietFront s with tin := ⟨.send, 0#3, d, true⟩ }
  | .rxIdle w => holdWord (openReaders s) w
  | .rxStart => holdChar (openReaders s) pakStart true
  | .rxEnd => holdChar (openReaders s) pakEnd true
  | .rxTrig282 => holdChar (openReaders s) trigIndic282 true
  | .rxTrig284 => holdChar (openReaders s) trigIndic284 true
  | .rxIoack => holdChar (openReaders s) ioAck true
  | .rxAckdata =>
    holdChar { openReaders s with ard := { s.ard with st := .readAck } } ackByte false
  | .rxTypeTest => holdChar (atType s) typeTest false
  | .rxTypeStream => holdChar (atType s) s.cfg.typeStream false
  | .rxTypeHeartbeat => holdChar (atType s) s.cfg.typeHeartbeat false
  | .rxTypeCommand03 => holdChar (atType s) 0x03#8 false
  | .rxTypeCommand06 => holdChar (atType s) 0x06#8 false
  | .decode w => withRx (quietFront s) w
  | .crcAppend => s
  | .crcCheck _ => s
  | .idleInsert => s
  | .triggerRead => s
  | .triggerAckRead => s
  | .wordToChars => s
  | .framePacket => s
  | .classifyPacket => s
  | .dropIdle => s
  | .framingError => s
  | .storeCommandPacket => s
  | .heartbeatParse => s
  | .testCheck => s
  | .prioritySelect => s
  | .hostStartCmd => withHost (quietFront s) (pinStartCmd HostIn.quiet)
  | .hostStartTest => withHost (quietFront s) (pinStartTest HostIn.quiet)
  | .hostBufWrite a v => withHost (quietFront s) (pinBufWrite a v HostIn.quiet)
  | .hostLenWrite n => withHost (quietFront s) (pinLenWrite n HostIn.quiet)
  | .hostRdWrite n => withHost (quietFront s) (pinRdWrite n HostIn.quiet)
  | .hostAckErrors => withHost (quietFront s) (pinAckErrors HostIn.quiet)
  | .hostSlotRead slot word => withHost (quietFront s) (pinSlotRead slot word HostIn.quiet)
  | .hostTrigStrobe d m => withHost (quietFront s) (pinTrigStrobe d m HostIn.quiet)
  | .hostTrigAckStrobe => withHost (quietFront s) (pinTrigAckStrobe HostIn.quiet)

/-- The instruction a table word is, placed; a word that is no instruction changes nothing. -/
def placeTableWord (s : State) (nbits w : Nat) : State :=
  match decodeTableWord nbits w with
  | some i => place s i
  | none => s

end Sys2Proof.Machine
end

