-- ==== Sys2Proof/Machine/Streams.lean ====
section
/-!
DEFINITION. Streams.lean: the transaction-level view of single blocks (rules R406, R430, R431, R444, R492,
R505, R537, R610, R663, R668): what a block delivers for a list of words when its consumer is always ready.
These are for statements only: no step uses them (log entry 22).
-/
namespace Sys2Proof.Machine

/-- `n` ticks of a block whose upstream offers the words of a queue in order and whose consumer is always
ready: its state, the words not yet taken, and what it delivered (rules R14, R15). -/
def feed {σ α β : Type} (out : σ → Option α → Option β) (ready : σ → Bool) (next : σ → Option α → σ) :
    Nat → σ → List α → σ × List α × List β
  | 0, b, q => (b, q, [])
  | n + 1, b, q =>
    let r := feed out ready next n (next b q.head?) (if ready b then q.tail else q)
    (r.1, r.2.1, (out b q.head?).toList ++ r.2.2)

/-- The CRC inserter fed with writer words (rule R430). -/
def cinFeed : Nat → Cin → List WWord → Cin × List WWord × List Word :=
  feed cinOut (fun b => cinInReady b true) (fun b i => cinNext b i true)

/-- The framer fed with words (rule R505). -/
def frmFeed : Nat → FrmSt → List Word → FrmSt × List Word × List Word :=
  feed frmOut (fun b => frmInReady b true) (fun b i => frmNext b i true)

/-- The idle inserter fed with words (rules R444, R445). -/
def idlFeed : Nat → Idl → List Word → Idl × List Word × List Word :=
  feed idlOut (fun b => idlInReady b true) (fun b i => idlNext b i true)

/-- The converter fed with words (rule R492). -/
def cnvFeed : Nat → Cnv → List Word → Cnv × List Word × List Chr :=
  feed (fun b _ => cnvOut b) (fun b => cnvInReady b true) (fun b i => cnvNext b i true)

/-- The four characters of a word, lane 0 first (rule R492). -/
def charsOf (w : Word) : List Chr :=
  [⟨lane w.data 0, w.k.getLsbD 0⟩, ⟨lane w.data 1, w.k.getLsbD 1⟩, ⟨lane w.data 2, w.k.getLsbD 2⟩,
    ⟨lane w.data 3, w.k.getLsbD 3⟩]

/-- The writer sending to an always ready consumer, with no host input and the buffer as it stands: what it
sends in `n` ticks (rules R609, R610). `read` is the command buffer. -/
def wrtSends (c : Config) (read : Nat → Data) : Nat → Wrt → List WWord
  | 0, _ => []
  | n + 1, b => (wrtOut c b (read b.idx)).toList ++ wrtSends c read n (wrtRun c b false false true)

/-- A checker taking words one after another: its state, what it forwards and its error pulses (rule
R431). -/
def chkFeed (b : Chk) : List Word → Chk × List Word × List Bool
  | [] => (b, [], [])
  | w :: ws =>
    let r := chkFeed (chkNext b (some w)) ws
    (r.1, (chkOut b (some w)).toList ++ r.2.1, chkError b (some w) :: r.2.2)

/-- The classifier taking words one after another: its state, what it emits with the port, and its error
pulses (rule R537). -/
def clsFeed (c : Config) (b : Cls) : List DWord → Cls × List (Port × Word) × List Bool
  | [] => (b, [], [])
  | w :: ws =>
    let r := clsFeed c (clsNext c b (some w)) ws
    (r.1, ((clsEmit b (some w)).map fun e => (b.port, e)).toList ++ r.2.1, clsError c b (some w) :: r.2.2)

/-- The heartbeat reader taking the words of a packet, the error pulse coming with the last (rule R663). -/
def hbrFeed (b : Hbr) (crcError : Bool) : List Word → Hbr
  | [] => b
  | w :: ws => hbrFeed (hbrNext b (some w) crcError) crcError ws

/-- The reassembler taking the words of a packet with no host input (rule R652). -/
def rsmFeed (c : Config) (b : Rsm) (crcError : Bool) : List Word → Rsm
  | [] => b
  | w :: ws => rsmFeed c (rsmNext c b (some w) crcError HostIn.quiet) crcError ws

/-- The test checker taking words one after another: its state and its error pulses (rule R668). -/
def tckFeed (c : Config) (b : Tck) : List Word → Tck × List Bool
  | [] => (b, [])
  | w :: ws =>
    let r := tckFeed c (tckNext c b (some w)) ws
    (r.1, tckError b (some w) :: r.2)

/-- Words as a packet: `eop` on the last only (rule R500). -/
def asPacket : List (Data × Marks) → List Word
  | [] => []
  | [w] => [⟨w.1, w.2, true⟩]
  | w :: v :: ws => ⟨w.1, w.2, false⟩ :: asPacket (v :: ws)

/-- The 1024 words of the self-test payload (rules R314, R668). -/
def testPattern : List (Data × Marks) := (List.range 1024).map fun j => (pat (4 * j), noMarks)

/-- The reflected step of rule R422, one data bit. -/
def reflBit (q : Data) (b : Bool) : Data :=
  (q >>> 1) ^^^ (if q.getLsbD 0 ^^ b then 0xEDB88320#32 else 0#32)

/-- The first `n` bits of `d` into the reflected register (rule R422). -/
def reflBits (q d : Data) : Nat → Data
  | 0 => q
  | n + 1 => reflBit (reflBits q d n) (d.getLsbD n)

end Sys2Proof.Machine
end

