-- ==== Sys2Proof/Safety.lean ====
section
/-!
DEFINITION. Safety.lean: what a legal state of the core is, in the terms the statements use: the widths and
ranges of rules R103 to R117 (10_state.md), the decoder's stages holding the votes of their words (rule
R405), and the blocks of each pipeline agreeing on where a packet stands (rules R427, R429, R503, R529).
-/
namespace Sys2Proof.Machine

/-- The parameters obey rule R10 and both memories are canonical and inside their bounds (rules R200,
R206). -/
structure LegalMemory (s : State) : Prop where
  cfg : s.cfg.valid = true
  bufWf : s.wrt.buf.wf = true
  bufInside : ∀ e ∈ s.wrt.buf, e.1 < s.cfg.bufWords
  slotWf : s.rsm.mem.wf = true
  slotInside : ∀ e ∈ s.rsm.mem, e.1 < s.cfg.nSlots * s.cfg.slotWords

/-- The counters, cursors and lengths stay in the ranges of rules R108 to R111, R114, R116 and R117. -/
structure LegalRanges (s : State) : Prop where
  wr : s.rsm.wr < s.cfg.nSlots
  rd : s.rsm.rd < s.cfg.nSlots
  wcount : s.rsm.wcount ≤ s.cfg.slotWords
  slotCount : s.rsm.slotLen.length = s.cfg.nSlots
  slotLens : ∀ l ∈ s.rsm.slotLen, l ≤ s.cfg.slotWords
  len : s.wrt.len < 2 ^ s.cfg.lenBits
  curLen : s.wrt.curLen ≤ s.cfg.bufWords
  idxInPacket : s.wrt.st = .cmd → s.wrt.idx < s.wrt.curLen
  idxOutside : s.wrt.st ≠ .cmd → s.wrt.idx = 0
  pattern : s.wrt.n.toNat % 4 = 0
  countdown : s.idl.cnt.toNat ≤ 9999
  testWords : s.tck.wcnt.toNat ≤ 1024
  testPackets : s.tck.pktCnt < 2 ^ s.cfg.testCntBits
  testErrors : s.tck.errCnt < 2 ^ s.cfg.testCntBits
  sequence : s.tin.i.toNat ≤ 5
  sequenceIdle : s.tin.st = .copy → s.tin.i = 0#3
  lanes : s.cnv.full = false → s.cnv.idx = 0#2

/-- Each decoder stage holds the vote of the word it holds (rules R401, R402, R405). -/
structure LegalVotes (s : State) : Prop where
  terms : s.dcd.s1T = dataTerms s.dcd.s1Data
  markTerms : s.dcd.s1Tk = markTerms s.dcd.s1K
  vote : s.dcd.s2Dchar = voteChar s.dcd.s2Data
  markVote : s.dcd.s2DcharK = voteMark s.dcd.s2K

/-- The receive blocks agree on where a packet stands: a held or counted word belongs to the packet the
classifier is in, on the port it selected (rules R427, R529, R641, R661, R665); a register outside a
packet is at the seed (rules R107, R427). -/
structure ReceiveAligned (s : State) : Prop where
  held : s.cls.hv = true → s.cls.st = .payload
  hbHeld : s.chkHb.hv = true → s.cls.hv = true ∧ s.cls.port = .heartbeat
  cmdHeld : s.chkCmd.hv = true → s.cls.hv = true ∧ s.cls.port = .command
  hbSeed : s.chkHb.hv = false → s.chkHb.crc = crcSeed
  cmdSeed : s.chkCmd.hv = false → s.chkCmd.crc = crcSeed
  hbCount : s.hbr.cnt ≠ 0#2 → s.chkHb.hv = true
  cmdCount : s.rsm.wcount ≠ 0 → s.chkCmd.hv = true
  testCount : s.tck.wcnt ≠ 0#11 → s.cls.hv = true ∧ s.cls.port = .test
  testClean : s.tck.wcnt = 0#11 → s.tck.bad = false

/-- The writer stands before the first word of a packet, or sends none. -/
def beforePacket (w : Wrt) : Bool :=
  w.st == .idle || (w.st == .cmd && w.idx == 0) || w.st == .testType

/-- The transmit blocks agree on where a packet stands: the CRC inserter's state says how far the writer
is (rule R429), and the framer copies exactly while a packet passes (rule R503). -/
structure TransmitAligned (s : State) : Prop where
  first : s.cin.st = .first → beforePacket s.wrt = true
  trailer : s.cin.st = .trailer → beforePacket s.wrt = true
  body : s.cin.st = .body → s.wrt.st = .cmd ∧ s.wrt.idx ≠ 0
  bypass : s.cin.st = .bypass → s.wrt.st = .testData
  seed : s.cin.st = .first ∨ s.cin.st = .bypass → s.cin.crc = crcSeed
  framed : s.frm ≠ .copy → s.cin.st = .first

/-- A legal state: everything above. -/
structure Legal (s : State) : Prop where
  memory : LegalMemory s
  ranges : LegalRanges s
  votes : LegalVotes s
  receive : ReceiveAligned s
  transmit : TransmitAligned s

/-- The core runs: its parameters obey rule R10 and the tick is no reset tick (rule R750). -/
def runs (s : State) : Prop := s.cfg.valid = true ∧ s.inp.rst = false

/-- The rows that the host or the front end drives from outside: the host operations and DECODE. -/
def driven : Instr → Bool
  | .decode _ | .hostStartCmd | .hostStartTest | .hostBufWrite _ _ | .hostLenWrite _ | .hostRdWrite _
  | .hostAckErrors | .hostSlotRead _ _ | .hostTrigStrobe _ _ | .hostTrigAckStrobe => true
  | .startWord | .endWord | .idleWord | .ioackWord | .ackDataWord | .typeTestWord | .typeWord _
  | .patWord _ | .crcTrailerWord _ | .trigSeqNormal _ | .trigSeqLinktrig _ | .rxIdle _ | .rxStart
  | .rxEnd | .rxTrig282 | .rxTrig284 | .rxIoack | .rxAckdata | .rxTypeTest | .rxTypeStream
  | .rxTypeHeartbeat | .rxTypeCommand03 | .rxTypeCommand06 | .crcAppend | .crcCheck _ | .idleInsert
  | .triggerRead | .triggerAckRead | .wordToChars | .framePacket | .classifyPacket | .dropIdle
  | .framingError | .storeCommandPacket | .heartbeatParse | .testCheck | .prioritySelect => false

/-- The state with the signals of a driven row on the pins (rules R118, R119); the pins of any other row
are as they stand. -/
def driveRow (i : Instr) (s : State) : State :=
  match i with
  | .decode w => withRx s w
  | .hostStartCmd => withHost s (pinStartCmd s.inp.host)
  | .hostStartTest => withHost s (pinStartTest s.inp.host)
  | .hostBufWrite a v => withHost s (pinBufWrite a v s.inp.host)
  | .hostLenWrite n => withHost s (pinLenWrite n s.inp.host)
  | .hostRdWrite n => withHost s (pinRdWrite n s.inp.host)
  | .hostAckErrors => withHost s (pinAckErrors s.inp.host)
  | .hostSlotRead slot word => withHost s (pinSlotRead slot word s.inp.host)
  | .hostTrigStrobe d m => withHost s (pinTrigStrobe d m s.inp.host)
  | .hostTrigAckStrobe => withHost s (pinTrigAckStrobe s.inp.host)
  | .startWord | .endWord | .idleWord | .ioackWord | .ackDataWord | .typeTestWord | .typeWord _
  | .patWord _ | .crcTrailerWord _ | .trigSeqNormal _ | .trigSeqLinktrig _ | .rxIdle _ | .rxStart
  | .rxEnd | .rxTrig282 | .rxTrig284 | .rxIoack | .rxAckdata | .rxTypeTest | .rxTypeStream
  | .rxTypeHeartbeat | .rxTypeCommand03 | .rxTypeCommand06 | .crcAppend | .crcCheck _ | .idleInsert
  | .triggerRead | .triggerAckRead | .wordToChars | .framePacket | .classifyPacket | .dropIdle
  | .framingError | .storeCommandPacket | .heartbeatParse | .testCheck | .prioritySelect => s

/-- The receive blocks but the reassembler agree. -/
def sameReceivers (s t : State) : Prop :=
  s.dcd = t.dcd ∧ s.trd = t.trd ∧ s.ard = t.ard ∧ s.cls = t.cls ∧ s.chkHb = t.chkHb ∧
    s.chkCmd = t.chkCmd ∧ s.hbr = t.hbr ∧ s.tck = t.tck

/-- The transmit blocks between the writer and the two inserters of strobed sequences agree. -/
def sameFramers (s t : State) : Prop :=
  s.cin = t.cin ∧ s.frm = t.frm ∧ s.idl = t.idl ∧ s.cnv = t.cnv

/-- All transmit blocks agree. -/
def sameTransmit (s t : State) : Prop :=
  sameFramers s t ∧ s.wrt = t.wrt ∧ s.ain = t.ain ∧ s.tin = t.tin

/-- The host signals that the transmit blocks read agree (rule R119). -/
def sameTransmitPins (h k : HostIn) : Prop :=
  h.bufWe = k.bufWe ∧ h.bufAddr = k.bufAddr ∧ h.bufWdata = k.bufWdata ∧ h.lenWe = k.lenWe ∧
    h.lenWdata = k.lenWdata ∧ h.startCmd = k.startCmd ∧ h.startTest = k.startTest ∧
    h.trigStrobe = k.trigStrobe ∧ h.trigDelay = k.trigDelay ∧ h.linktrigMode = k.linktrigMode ∧
    h.trigAckStrobe = k.trigAckStrobe

/-- The host signals that the receive blocks read agree, but for the slot read address (rule R119). -/
def sameReceivePins (h k : HostIn) : Prop :=
  h.rdWe = k.rdWe ∧ h.rdWdata = k.rdWdata ∧ h.ackErrors = k.ackErrors

/-- The outputs of the receive side agree, but for the slot read port's (rules R118, R120). -/
def sameReceiveOutputs (o p : Outputs) : Prop :=
  o.rxReady = p.rxReady ∧ o.rxTaken = p.rxTaken ∧ o.streamOut = p.streamOut ∧ o.wrPtr = p.wrPtr ∧
    o.rdPtr = p.rdPtr ∧ o.bufferError = p.bufferError ∧ o.bufferOverflow = p.bufferOverflow ∧
    o.decodeError = p.decodeError ∧ o.crcErrorHb = p.crcErrorHb ∧ o.crcErrorCmd = p.crcErrorCmd ∧
    o.trigDetected = p.trigDetected ∧ o.trigRxDelay = p.trigRxDelay ∧
    o.trigRxLinktrig = p.trigRxLinktrig ∧ o.ackReceived = p.ackReceived ∧ o.hbHostId = p.hbHostId ∧
    o.hbTimestamp = p.hbTimestamp ∧ o.testError = p.testError ∧ o.testPktCnt = p.testPktCnt ∧
    o.testErrCnt = p.testErrCnt

/-- The outputs of the transmit side agree (rules R118, R120). -/
def sameTransmitOutputs (o p : Outputs) : Prop :=
  o.txOut = p.txOut ∧ o.txTaken = p.txTaken ∧ o.busy = p.busy

/-- The checker of a port. -/
def chkOf (s : State) : CrcPort → Chk
  | .heartbeat => s.chkHb
  | .command => s.chkCmd

/-- The word standing on a checker's port. -/
def chkInput (s : State) : CrcPort → Option Word
  | .heartbeat => rxPort s .heartbeat
  | .command => rxPort s .command

/-- The word a checker forwards in this tick. -/
def chkForwards (s : State) : CrcPort → Option Word
  | .heartbeat => rxHb s
  | .command => rxCmd s

/-- The error pulse of a checker among a tick's outputs. -/
def chkPulse (o : Outputs) : CrcPort → Bool
  | .heartbeat => o.crcErrorHb
  | .command => o.crcErrorCmd

end Sys2Proof.Machine
end

