-- ==== Sys2Proof/Certificates/Slice0/Obligations.lean ====
section
/-!
DEFINITION. Obligations.lean: the statements about the model, from the numbered rules of spec/. A row of the
table is a label of a tick (log entry 4): each statement about a row has as its conclusion that `exec`
answers a next state, and says what that state holds. `runs s` is: the parameters obey rule R10 and the tick
is no reset tick.
-/

section
open Sys2Proof Sys2Proof.Machine

/-! ### Emitted codes -/

/-- Rules R502, R504, R308 and R309: in INSERT_HEADER the framer offers START_WORD, in INSERT_FOOTER END_WORD,
the one word with `eop`; it takes nothing from upstream, and goes on when its consumer is ready. An accepted
word is in the converter, and after END_WORD the idle inserter stands before an idle word (rule R442). -/
def Obligations.MarkerWordsStep : Prop :=
  ∀ s : State, runs s →
    (s.frm = .insertHeader →
      txFrm s = some ⟨0xFBFBFBFB#32, 0b1111#4, false⟩ ∧ rdyFrm s = false ∧
      ∃ t, exec .startWord s = .next t ∧
        t.frm = (if rdyIdl s then FrmSt.copy else .insertHeader) ∧ t.cin = s.cin ∧
        (rdyIdl s = true → t.cnv = ⟨true, 0xFBFBFBFB#32, 0b1111#4, 0#2⟩)) ∧
    (s.frm = .insertFooter →
      txFrm s = some ⟨0xFDFDFDFD#32, 0b1111#4, true⟩ ∧ rdyFrm s = false ∧
      ∃ t, exec .endWord s = .next t ∧
        t.frm = (if rdyIdl s then FrmSt.idle else .insertFooter) ∧ t.cin = s.cin ∧
        (rdyIdl s = true → t.cnv = ⟨true, 0xFDFDFDFD#32, 0b1111#4, 0#2⟩ ∧ t.idl.st = .writeIdle))

/-- Rules R441 and R310: in WRITE_IDLE the idle inserter offers IDLE_WORD, withholds its upstream, and on
acceptance reloads the countdown and goes to COPY. Rules R481 and R482: the two words of a trigger-ack, each
held until the converter takes it; the stage takes nothing from upstream meanwhile, so the idle inserter
stands still. -/
def Obligations.InsertedWordsStep : Prop :=
  ∀ s : State, runs s →
    (s.idl.st = .writeIdle →
      txIdl s = some ⟨0xB53C3CBC#32, 0b0111#4, false⟩ ∧ rdyIdl s = false ∧
      ∃ t, exec .idleWord s = .next t ∧
        t.idl = (if rdyAin s then ⟨IdlSt.copy, 9999#14⟩ else s.idl) ∧
        (rdyAin s = true → t.cnv = ⟨true, 0xB53C3CBC#32, 0b0111#4, 0#2⟩)) ∧
    (s.ain = .ackK →
      txAin s = some ⟨0xDCDCDCDC#32, 0b1111#4, false⟩ ∧ rdyAin s = false ∧
      ∃ t, exec .ioackWord s = .next t ∧ t.ain = (if rdyCnv s then AinSt.ackData else .ackK) ∧
        t.idl = s.idl ∧ (rdyCnv s = true → t.cnv = ⟨true, 0xDCDCDCDC#32, 0b1111#4, 0#2⟩)) ∧
    (s.ain = .ackData →
      txAin s = some ⟨0x01010101#32, 0b0000#4, false⟩ ∧ rdyAin s = false ∧
      ∃ t, exec .ackDataWord s = .next t ∧ t.ain = (if rdyCnv s then AinSt.copy else .ackData) ∧
        t.idl = s.idl ∧ (rdyCnv s = true → t.cnv = ⟨true, 0x01010101#32, 0b0000#4, 0#2⟩))

/-- Rules R605 and R606. TYPE_TEST_WORD, which is also TYPE_WORD of 0x04, from the writer in TEST_TYPE;
TYPE_WORD of the byte whose four copies the host put in the command buffer's word 0, from the writer in CMD
at index 0; and any word of a command packet, the row CRC_APPEND taking it: a word of the buffer that the host
has not written since the last reset is some word. What the rules do not assign, the latched
length among it, is kept (rules R14, R602). -/
def Obligations.TypeWordsStep : Prop :=
  (∀ (i : Instr) (s : State), runs s → s.wrt.st = .testType →
    i = .typeTestWord ∨ i = .typeWord 0x04#8 →
      txWrt s = some ⟨0x04040404#32, 0b0000#4, false, false⟩ ∧
      ∃ t, exec i s = .next t ∧
        t.wrt.st = (if rdyCin s then WrtSt.testData else .testType) ∧
        t.wrt.n = (if rdyCin s then 0#12 else s.wrt.n) ∧ t.wrt.idx = s.wrt.idx ∧
        t.wrt.curLen = s.wrt.curLen) ∧
  (∀ (ty : Byte) (s : State), runs s → s.wrt.st = .cmd → s.wrt.idx = 0 →
    1 ≤ s.wrt.curLen → s.wrt.curLen ≤ s.cfg.bufWords →
    memRead s.wrt.buf 0 = some (ty ++ ty ++ ty ++ ty) →
      txWrt s = some ⟨ty ++ ty ++ ty ++ ty, 0b0000#4, decide (s.wrt.curLen = 1), true⟩ ∧
      ∃ t, exec (.typeWord ty) s = .next t ∧
        t.wrt.st = (if rdyCin s ∧ s.wrt.curLen = 1 then WrtSt.idle else .cmd) ∧
        t.wrt.idx = (if rdyCin s ∧ s.wrt.curLen ≠ 1 then 1 else 0) ∧ t.wrt.curLen = s.wrt.curLen ∧
        t.wrt.n = s.wrt.n) ∧
  (∀ s : State, runs s → s.wrt.st = .cmd → s.wrt.idx < s.wrt.curLen → s.wrt.curLen ≤ s.cfg.bufWords →
    (∃ v, txWrt s = some ⟨v, 0b0000#4, decide (s.wrt.idx = s.wrt.curLen - 1), true⟩ ∧
      ∀ d, memRead s.wrt.buf s.wrt.idx = some d → v = d) ∧
    ∃ t, exec .crcAppend s = .next t ∧ t.wrt.curLen = s.wrt.curLen ∧ t.wrt.n = s.wrt.n ∧
      (rdyCin s = true → s.wrt.idx = s.wrt.curLen - 1 → t.wrt.idx = 0 ∧ t.wrt.st = .idle) ∧
      (rdyCin s = true → s.wrt.idx ≠ s.wrt.curLen - 1 → t.wrt.idx = s.wrt.idx + 1 ∧ t.wrt.st = .cmd) ∧
      (rdyCin s = false → t.wrt.idx = s.wrt.idx ∧ t.wrt.st = .cmd))

/-- Rule R607: in TEST_DATA the writer offers `pat(n)` with `eop` exactly at 0xFFC, and on acceptance adds 4
or ends the packet. -/
def Obligations.PatternWordStep : Prop :=
  ∀ s : State, runs s → s.wrt.st = .testData →
    txWrt s = some
      ⟨BitVec.ofNat 8 (s.wrt.n.toNat + 3) ++ BitVec.ofNat 8 (s.wrt.n.toNat + 2) ++
        BitVec.ofNat 8 (s.wrt.n.toNat + 1) ++ BitVec.ofNat 8 s.wrt.n.toNat,
        0b0000#4, decide (s.wrt.n = 0xFFC#12), false⟩ ∧
    ∃ t, exec (.patWord s.wrt.n) s = .next t ∧ t.wrt.idx = s.wrt.idx ∧ t.wrt.curLen = s.wrt.curLen ∧
      (rdyCin s = true → s.wrt.n = 0xFFC#12 → t.wrt.n = 0#12 ∧ t.wrt.st = .idle) ∧
      (rdyCin s = true → s.wrt.n ≠ 0xFFC#12 → t.wrt.n = s.wrt.n + 4#12 ∧ t.wrt.st = .testData) ∧
      (rdyCin s = false → t.wrt.n = s.wrt.n ∧ t.wrt.st = .testData)

/-- The TRAILER arm of rule R429: the inserter offers its register, bit-reversed, as the packet's last word,
and on acceptance stands before the next packet with the register at the seed; the framer, copying, goes on
to the footer. -/
def Obligations.TrailerWordStep : Prop :=
  ∀ s : State, runs s → s.cin.st = .trailer →
    txCin s = some ⟨s.cin.crc.reverse, 0b0000#4, true⟩ ∧ rdyCin s = false ∧
    ∃ t, exec (.crcTrailerWord s.cin.crc.reverse) s = .next t ∧
      t.cin = (if rdyFrm s then ⟨CinSt.first, 0xFFFFFFFF#32⟩ else s.cin) ∧
      (rdyFrm s = true → t.frm = .insertFooter)

/-- Rules R466 and R461: in SEND the trigger inserter offers character `i` of the six, top of every other
class, and counts the characters taken; the converter holds what it holds. -/
def Obligations.TriggerCharacterStep : Prop :=
  ∀ s : State, runs s → s.tin.st = .send → s.tin.i.toNat ≤ 5 →
    ∃ t, exec (if s.tin.mode then .trigSeqLinktrig s.tin.delay else .trigSeqNormal s.tin.delay) s = .next t ∧
      t.out.txOut =
        (if s.tin.mode
          then [⟨0x9C#8, true⟩, ⟨0x5C#8, true⟩, ⟨0x5C#8, true⟩, ⟨s.tin.delay, false⟩,
            ⟨s.tin.delay, false⟩, ⟨s.tin.delay, false⟩]
          else [⟨0x5C#8, true⟩, ⟨0x9C#8, true⟩, ⟨0x9C#8, true⟩, ⟨s.tin.delay, false⟩,
            ⟨s.tin.delay, false⟩, ⟨s.tin.delay, false⟩])[s.tin.i.toNat]? ∧
      rdyTin s = false ∧ (s.cnv.full = true → t.cnv = s.cnv) ∧
      t.tin.delay = s.tin.delay ∧ t.tin.mode = s.tin.mode ∧
      (s.inp.txReady = true → s.tin.i = 5#3 → t.tin.i = 0#3 ∧ t.tin.st = .copy) ∧
      (s.inp.txReady = true → s.tin.i ≠ 5#3 → t.tin.i = s.tin.i + 1#3 ∧ t.tin.st = .send) ∧
      (s.inp.txReady = false → t.tin = s.tin)

/-! ### Received codes -/

/-- Rules R526 and R324: an idle word at the classifier, accepted or not, changes no state of the classifier
and of the blocks behind it, and nothing is emitted. -/
def Obligations.IdleWordsRemoved : Prop :=
  ∀ (i : Instr) (w : DWord) (s : State), runs s → rxArd s = some w →
    w.k.getLsbD 0 = true → BitVec.extractLsb' 0 8 w.data = 0xBC#8 →
    i = .rxIdle ⟨w.data, w.k⟩ ∨ i = .dropIdle →
      ∃ t, exec i s = .next t ∧ t.cls = s.cls ∧ t.out.decodeError = false ∧ t.out.streamOut = none ∧
        (∀ p, rxPort s p = none) ∧ t.chkHb = s.chkHb ∧ t.chkCmd = s.chkCmd ∧ t.hbr = s.hbr ∧
        t.tck = s.tck ∧ t.rsm.mem = s.rsm.mem ∧ t.rsm.wcount = s.rsm.wcount ∧ t.rsm.wr = s.rsm.wr ∧
        t.rsm.slotLen = s.rsm.slotLen

/-- An accepted start or end marker in each state of the classifier (rules R320, R321, R527 to R531). A start
opens a packet; in TYPE and in PAYLOAD it is an error, and in PAYLOAD it first closes the packet on its port.
An end closes the packet, with `eop` on the held word, or emits nothing where none is held; elsewhere it is an
error. -/
def Obligations.PacketMarkersStep : Prop :=
  ∀ (w : DWord) (s : State), runs s → rxArd s = some w → isIdle w = false → rdyCls s = true →
    w.dcharK = true →
    (w.dchar = 0xFB#8 →
      ∃ t, exec .rxStart s = .next t ∧ t.out.streamOut = rxPort s .stream ∧
        (s.cls.st = .scan →
          t.cls = { s.cls with st := .type } ∧ t.out.decodeError = false ∧ ∀ p, rxPort s p = none) ∧
        (s.cls.st = .type → t.cls = s.cls ∧ t.out.decodeError = true ∧ ∀ p, rxPort s p = none) ∧
        (s.cls.st = .payload →
          t.cls = { s.cls with hv := false, st := .type } ∧ t.out.decodeError = true ∧
          rxPort s s.cls.port = if s.cls.hv then some ⟨s.cls.hData, s.cls.hK, true⟩ else none)) ∧
    (w.dchar = 0xFD#8 →
      ∃ t, exec .rxEnd s = .next t ∧ t.out.streamOut = rxPort s .stream ∧
        (s.cls.st = .scan → t.cls = s.cls ∧ t.out.decodeError = true ∧ ∀ p, rxPort s p = none) ∧
        (s.cls.st = .type →
          t.cls = { s.cls with st := .scan } ∧ t.out.decodeError = true ∧ ∀ p, rxPort s p = none) ∧
        (s.cls.st = .payload →
          t.cls = { s.cls with hv := false, st := .scan } ∧ t.out.decodeError = false ∧
          rxPort s s.cls.port = if s.cls.hv then some ⟨s.cls.hData, s.cls.hK, true⟩ else none))

/-- Rules R325 and R528 for a known type: the word in the type position selects the port of its class, and is
not forwarded. -/
def Obligations.TypeWordSelectsPort : Prop :=
  ∀ (i : Instr) (p : Port) (w : DWord) (s : State), runs s → s.cls.st = .type → rxArd s = some w →
    isIdle w = false → w.dcharK = false →
    (i = .rxTypeTest ∧ p = .test ∧ w.dchar = 0x04#8) ∨
      (i = .rxTypeStream ∧ p = .stream ∧ w.dchar = s.cfg.typeStream) ∨
      (i = .rxTypeHeartbeat ∧ p = .heartbeat ∧ w.dchar = s.cfg.typeHeartbeat) ∨
      (i = .rxTypeCommand03 ∧ p = .command ∧ w.dchar = 0x03#8 ∧ 0x03#8 ∈ s.cfg.typeCommand) ∨
      (i = .rxTypeCommand06 ∧ p = .command ∧ w.dchar = 0x06#8 ∧ 0x06#8 ∈ s.cfg.typeCommand) →
      ∃ t, exec i s = .next t ∧ t.cls = { s.cls with port := p, hv := false, st := .payload } ∧
        t.out.decodeError = false ∧ ∀ q, rxPort s q = none

/-! ### The receive blocks -/

/-- Rules R401 and R405: a word offered on `rx_in`, or a bubble where none is offered, enters stage 1 with its
four subset terms, and stage 2 publishes the OR of the terms before; both stages hold while the consumer is
not ready. -/
def Obligations.DecodeStep : Prop :=
  ∀ (w : RawWord) (s : State), runs s →
    let after (valid : Bool) (w : RawWord) : Dcd :=
      { s1Valid := valid
        s1Data := w.data
        s1K := w.k
        s1T :=
          ⟨lane w.data 0 &&& lane w.data 1 &&& lane w.data 2,
            lane w.data 0 &&& lane w.data 1 &&& lane w.data 3,
            lane w.data 0 &&& lane w.data 2 &&& lane w.data 3,
            lane w.data 1 &&& lane w.data 2 &&& lane w.data 3⟩
        s1Tk :=
          ⟨w.k[0] && w.k[1] && w.k[2], w.k[0] && w.k[1] && w.k[3],
            w.k[0] && w.k[2] && w.k[3], w.k[1] && w.k[2] && w.k[3]⟩
        s2Valid := s.dcd.s1Valid
        s2Data := s.dcd.s1Data
        s2K := s.dcd.s1K
        s2Dchar := s.dcd.s1T.t0 ||| s.dcd.s1T.t1 ||| s.dcd.s1T.t2 ||| s.dcd.s1T.t3
        s2DcharK := s.dcd.s1Tk.t0 || s.dcd.s1Tk.t1 || s.dcd.s1Tk.t2 || s.dcd.s1Tk.t3 }
    rxDcd s =
      (if s.dcd.s2Valid then some ⟨s.dcd.s2Data, s.dcd.s2K, s.dcd.s2Dchar, s.dcd.s2DcharK⟩ else none) ∧
    (∃ t, exec (.decode w) s = .next t ∧ t.out.rxReady = rdyTrd s ∧ t.out.rxTaken = rdyTrd s ∧
      t.dcd = if rdyTrd s then after true w else s.dcd) ∧
    (s.inp.rxValid = false → ∃ t, step s = .next t ∧ t.out.rxReady = rdyTrd s ∧ t.out.rxTaken = false ∧
      t.dcd = if rdyTrd s then after false s.inp.rxWord else s.dcd)

/-- Rule R407: a word accepted in one tick is on the decoder's output two ticks later when the consumer was
ready in both, unchanged and with its majority vote beside it. -/
def Obligations.DecodeLatency : Prop :=
  ∀ (w : RawWord) (s t u : State), runs s → rdyTrd s = true → exec (.decode w) s = .next t →
    t.inp.rst = false → rdyTrd t = true → step t = .next u →
      rxDcd u = some
        ⟨w.data, w.k,
          maj4 (lane w.data 0) (lane w.data 1) (lane w.data 2) (lane w.data 3),
          (w.k[0] && w.k[1] && w.k[2]) || (w.k[0] && w.k[1] && w.k[3]) ||
            (w.k[0] && w.k[2] && w.k[3]) || (w.k[1] && w.k[2] && w.k[3])⟩

/-- Rules R470 to R472 and R474: either indicator in COPY (rule R322), and the two words after it whatever they
are (rule R475), are consumed and not forwarded; the fields are the corrected characters, and the pulse of
the next tick comes with them. The classifier and, but for its pulse, the ack reader stand still. Any other
word in COPY is forwarded and the reader transparent; a tick without a word changes the pulse only; the
pulse is 1 in no tick but the one after the third word, and the fields stay until the next trigger. -/
def Obligations.TriggerReadStep : Prop :=
  (∀ (i : Instr) (w : DWord) (s : State), runs s → rxDcd s = some w →
    (i = .triggerRead ∧ (s.trd.st = .copy → w.dcharK = true ∧ (w.dchar = 0x5C#8 ∨ w.dchar = 0x9C#8))) ∨
      (i = .rxTrig282 ∧ s.trd.st = .copy ∧ w.dcharK = true ∧ w.dchar = 0x5C#8) ∨
      (i = .rxTrig284 ∧ s.trd.st = .copy ∧ w.dcharK = true ∧ w.dchar = 0x9C#8) →
      rxTrd s = none ∧ rdyTrd s = true ∧
      ∃ t, exec i s = .next t ∧ t.ard = { s.ard with pulse := false } ∧ t.cls = s.cls ∧
        (s.trd.st = .copy → t.trd = { s.trd with st := .readDelay, pulse := false }) ∧
        (s.trd.st = .readDelay →
          t.trd = { s.trd with delay := w.dchar, st := .readLinktrig, pulse := false }) ∧
        (s.trd.st = .readLinktrig →
          t.trd = { s.trd with linktrig := w.dchar, st := .copy, pulse := true } ∧
          (outputs t).trigDetected = true ∧ (outputs t).trigRxDelay = s.trd.delay ∧
          (outputs t).trigRxLinktrig = w.dchar)) ∧
  (∀ s : State, runs s →
    (outputs s).trigDetected = s.trd.pulse ∧ (outputs s).trigRxDelay = s.trd.delay ∧
    (outputs s).trigRxLinktrig = s.trd.linktrig ∧
    (s.trd.st ≠ .copy → rxTrd s = none ∧ rdyTrd s = true) ∧
    (s.trd.st = .copy →
      (∀ w, rxDcd s = some w → w.dcharK = true → w.dchar ≠ 0x5C#8 ∧ w.dchar ≠ 0x9C#8) →
      rxTrd s = rxDcd s ∧ rdyTrd s = rdyArd s ∧
      ∃ t, step s = .next t ∧ t.trd = { s.trd with pulse := false }) ∧
    (rxDcd s = none → ∃ t, step s = .next t ∧ t.trd = { s.trd with pulse := false }) ∧
    ∃ t, step s = .next t ∧
      (t.trd.pulse = true ↔ s.trd.st = .readLinktrig ∧ (rxDcd s).isSome = true) ∧
      (s.trd.st ≠ .readDelay → t.trd.delay = s.trd.delay) ∧
      (s.trd.st ≠ .readLinktrig → t.trd.linktrig = s.trd.linktrig))

/-- Rules R485, R486 and R488: an ack marker in COPY and the word after it, whatever it is, are consumed; the
pulse of the next tick says whether the second was the data byte 0x01 with marker 0 (rule R323). Any other
word in COPY is forwarded and the reader transparent; a tick without a word changes the pulse only; the
pulse is 1 in no other tick. -/
def Obligations.TriggerAckReadStep : Prop :=
  (∀ (i : Instr) (w : DWord) (s : State), runs s → rxTrd s = some w →
    (i = .triggerAckRead ∧ (s.ard.st = .copy → w.dcharK = true ∧ w.dchar = 0xDC#8)) ∨
      (i = .rxIoack ∧ s.ard.st = .copy ∧ w.dcharK = true ∧ w.dchar = 0xDC#8) ∨
      (i = .rxAckdata ∧ s.ard.st = .readAck ∧ w.dcharK = false ∧ w.dchar = 0x01#8) →
      rxArd s = none ∧ rdyArd s = true ∧
      ∃ t, exec i s = .next t ∧ t.cls = s.cls ∧
        (s.ard.st = .copy → t.ard = ⟨.readAck, false⟩) ∧
        (s.ard.st = .readAck →
          t.ard.st = .copy ∧
          ((outputs t).ackReceived = true ↔ w.dcharK = false ∧ w.dchar = 0x01#8))) ∧
  (∀ s : State, runs s →
    (outputs s).ackReceived = s.ard.pulse ∧
    (s.ard.st ≠ .copy → rxArd s = none ∧ rdyArd s = true) ∧
    (s.ard.st = .copy → (∀ w, rxTrd s = some w → w.dcharK = true → w.dchar ≠ 0xDC#8) →
      rxArd s = rxTrd s ∧ rdyArd s = rdyCls s ∧ ∃ t, step s = .next t ∧ t.ard = ⟨.copy, false⟩) ∧
    (rxTrd s = none → ∃ t, step s = .next t ∧ t.ard = { s.ard with pulse := false }) ∧
    ∃ t, step s = .next t ∧
      (t.ard.pulse = true ↔
        s.ard.st = .readAck ∧ ∃ w, rxTrd s = some w ∧ w.dcharK = false ∧ w.dchar = 0x01#8))

/-- Rules R527 to R529, the arms without an error: what an accepted word that is no idle word does to the
classifier, and what leaves on its port; no other port sees anything (rule R538). Before them, when a word is
accepted at all (rules R522, R535, R690): the classifier is not ready exactly in PAYLOAD with a word held for
the stream port whose consumer is not ready; then it stands still and emits nothing; and `rx_in` follows it
while no word of a trigger or a trigger-ack stands before it. Without a word it stands still and emits nothing
(rules R522, R536). In every tick `stream_out` is the stream port (rules R118, R520, R681). -/
def Obligations.ClassifyStep : Prop :=
  (∀ s : State, s.cfg.valid = true → ∃ t, step s = .next t ∧ t.out.streamOut = rxPort s .stream) ∧
  (∀ s : State, runs s →
    (rxArd s = none →
      (∀ p, rxPort s p = none) ∧ ∃ t, step s = .next t ∧ t.cls = s.cls ∧ t.out.decodeError = false) ∧
    (rdyCls s = false ↔
      s.cls.st = .payload ∧ s.cls.hv = true ∧ s.cls.port = .stream ∧ s.inp.streamReady = false) ∧
    (rdyCls s = false →
      (∀ p, rxPort s p = none) ∧ ∃ t, step s = .next t ∧ t.cls = s.cls ∧ t.out.decodeError = false) ∧
    (s.trd.st = .copy → s.ard.st = .copy →
      (∀ w, rxDcd s = some w → w.dcharK = true →
        w.dchar ≠ 0x5C#8 ∧ w.dchar ≠ 0x9C#8 ∧ w.dchar ≠ 0xDC#8) →
      rxArd s = rxDcd s ∧ ∃ t, step s = .next t ∧ t.out.rxReady = rdyCls s) ∧
    (s.inp.streamReady = true → ∃ t, step s = .next t ∧ t.out.rxReady = true)) ∧
  (∀ (w : DWord) (s : State), runs s → rxArd s = some w → isIdle w = false → rdyCls s = true →
    framingBad s.cfg s.cls w = false →
      ∃ t, exec .classifyPacket s = .next t ∧ t.out.decodeError = false ∧
        (∀ p, p ≠ s.cls.port → rxPort s p = none) ∧
        (s.cls.st = .scan →
          t.cls = (if isStart w then { s.cls with st := .type } else s.cls) ∧
          rxPort s s.cls.port = none) ∧
        (s.cls.st = .type →
          (∃ p, typeOf s.cfg w = some p ∧ t.cls = { s.cls with port := p, hv := false, st := .payload }) ∧
          rxPort s s.cls.port = none) ∧
        (s.cls.st = .payload →
          t.cls = (if isEnd w then { s.cls with hv := false, st := .scan }
            else { s.cls with hData := w.data, hK := w.k, hv := true }) ∧
          rxPort s s.cls.port = if s.cls.hv then some ⟨s.cls.hData, s.cls.hK, isEnd w⟩ else none))

/-- Rule R533: `decode_error` is 1 in a tick exactly when the word accepted in it is an END in SCAN, a START,
an END or an unknown type in TYPE, or a START in PAYLOAD. Each such word is FRAMING_ERROR's, and the
classifier goes where rules R527 to R529 say: in SCAN it stays, in TYPE it stays on a START and scans on any
other, an unknown type included, which every control character is (rule R329), and in PAYLOAD it closes
the packet and goes to TYPE. -/
def Obligations.FramingErrorStep : Prop :=
  ∀ s : State, runs s → (∃ t, step s = .next t ∧ t.out.decodeError = decodeError s) ∧
    (decodeError s = true ↔
      rdyCls s = true ∧ ∃ w, rxArd s = some w ∧ isIdle w = false ∧
        ((s.cls.st = .scan ∧ isEnd w = true) ∨
          (s.cls.st = .type ∧ (isStart w = true ∨ isEnd w = true ∨ typeOf s.cfg w = none)) ∨
          (s.cls.st = .payload ∧ isStart w = true))) ∧
    (decodeError s = true →
      ∃ w t, rxArd s = some w ∧ exec .framingError s = .next t ∧ t.out.decodeError = true ∧
        (∀ p, p ≠ s.cls.port → rxPort s p = none) ∧
        (s.cls.st = .scan → t.cls = s.cls ∧ rxPort s s.cls.port = none) ∧
        (s.cls.st = .type →
          t.cls = (if isStart w then s.cls else { s.cls with st := .scan }) ∧
          rxPort s s.cls.port = none) ∧
        (s.cls.st = .payload →
          t.cls = { s.cls with hv := false, st := .type } ∧
          rxPort s s.cls.port = if s.cls.hv then some ⟨s.cls.hData, s.cls.hK, true⟩ else none)) ∧
    ∀ w : DWord, w.dcharK = true → typeOf s.cfg w = none

/-- Rules R427 and R428, for both checkers: the newest word is held and the one before it forwarded; a word
with `eop` is the trailer, withheld, and the pulse says whether the register after it is not 0. Without a word
on its port a checker stands still, forwards nothing and its pulse is 0 (rule R17). -/
def Obligations.CrcCheckStep : Prop :=
  (∀ (p : CrcPort) (s : State), runs s → chkInput s p = none →
    chkForwards s p = none ∧ ∃ t, step s = .next t ∧ chkOf t p = chkOf s p ∧ chkPulse t.out p = false) ∧
  (∀ (p : CrcPort) (w : Word) (s : State), runs s → chkInput s p = some w →
    ∃ t, exec (.crcCheck p) s = .next t ∧
      chkForwards s p = (if (chkOf s p).hv then some ⟨(chkOf s p).hData, (chkOf s p).hK, w.eop⟩ else none) ∧
      (w.eop = false →
        chkOf t p = ⟨crcStep (chkOf s p).crc w.data, true, w.data, w.k⟩ ∧ chkPulse t.out p = false) ∧
      (w.eop = true →
        chkOf t p = { chkOf s p with crc := 0xFFFFFFFF#32, hv := false } ∧
        chkPulse t.out p = decide (crcStep (chkOf s p).crc w.data ≠ 0x00000000#32)))

/-- Rules R641, R642, R644, R646 to R648: a word of a command packet at the reassembler. Every other word of
the slot memory reads as before. The flag and the cursors are what the host sees (rules R120, R646), and
without a word nothing but an acknowledge changes the flag. -/
def Obligations.StorePacketStep : Prop :=
  (∀ s : State, runs s →
    (outputs s).bufferError = s.rsm.bufferError ∧ (outputs s).wrPtr = s.rsm.wr ∧
    (outputs s).rdPtr = s.rsm.rd ∧
    (rxCmd s = none → ∃ t, step s = .next t ∧ t.out.bufferOverflow = false ∧
      t.rsm.bufferError = (s.rsm.bufferError && !s.inp.host.ackErrors))) ∧
  (∀ (w : Word) (s : State), runs s → rxCmd s = some w → s.rsm.wcount ≤ s.cfg.slotWords →
    s.rsm.wr < s.rsm.slotLen.length →
      ∃ t, exec .storeCommandPacket s = .next t ∧
        (∀ a, memRead t.rsm.mem a =
          if a = s.rsm.wr * s.cfg.slotWords + s.rsm.wcount ∧ s.rsm.wcount < s.cfg.slotWords
          then some w.data else memRead s.rsm.mem a) ∧
        t.rsm.wcount = (if w.eop then 0 else min (s.rsm.wcount + 1) s.cfg.slotWords) ∧
        (∀ slot, slotLen t slot =
          if w.eop = true ∧ crcErrorCmd s = false ∧ slot = s.rsm.wr
          then min (s.rsm.wcount + 1) s.cfg.slotWords else slotLen s slot) ∧
        t.rsm.wr =
          (if w.eop = true ∧ crcErrorCmd s = false ∧ (s.rsm.wr + 1) % s.cfg.nSlots ≠ s.rsm.rd
          then (s.rsm.wr + 1) % s.cfg.nSlots else s.rsm.wr) ∧
        t.out.bufferOverflow =
          decide (w.eop = true ∧ crcErrorCmd s = false ∧ (s.rsm.wr + 1) % s.cfg.nSlots = s.rsm.rd) ∧
        t.rsm.bufferError = (t.out.bufferOverflow || (s.rsm.bufferError && !s.inp.host.ackErrors)) ∧
        t.rsm.rd = (if s.inp.host.rdWe then s.inp.host.rdWdata % s.cfg.nSlots else s.rsm.rd))

/-- Rules R660 and R661: the staging words and the count, and, at the last word of a packet of three words
or more that passed its CRC check, the two values, most significant byte in lane 0. Both are what the host
sees in every tick (rules R120, R659). -/
def Obligations.HeartbeatStep : Prop :=
  (∀ s : State, (outputs s).hbHostId = s.hbr.hostId ∧ (outputs s).hbTimestamp = s.hbr.timestamp) ∧
  (∀ (w : Word) (s : State), runs s → rxHb s = some w →
    ∃ t, exec .heartbeatParse s = .next t ∧
      t.hbr.w0 = (if s.hbr.cnt = 0#2 then w.data else s.hbr.w0) ∧
      t.hbr.w1 = (if s.hbr.cnt = 1#2 then w.data else s.hbr.w1) ∧
      t.hbr.w2 = (if s.hbr.cnt = 2#2 then w.data else s.hbr.w2) ∧
      t.hbr.cnt.toNat = (if w.eop then 0 else min (s.hbr.cnt.toNat + 1) 3) ∧
      (w.eop = true ∧ 2 ≤ s.hbr.cnt.toNat ∧ crcErrorHb s = false →
        t.hbr.hostId = lane t.hbr.w0 0 ++ lane t.hbr.w0 1 ++ lane t.hbr.w0 2 ++ lane t.hbr.w0 3 ∧
        t.hbr.timestamp =
          (lane t.hbr.w1 0 ++ lane t.hbr.w1 1 ++ lane t.hbr.w1 2 ++ lane t.hbr.w1 3) ++
            (lane t.hbr.w2 0 ++ lane t.hbr.w2 1 ++ lane t.hbr.w2 2 ++ lane t.hbr.w2 3)) ∧
      (¬ (w.eop = true ∧ 2 ≤ s.hbr.cnt.toNat ∧ crcErrorHb s = false) →
        t.hbr.hostId = s.hbr.hostId ∧ t.hbr.timestamp = s.hbr.timestamp))

/-- Rules R665 to R667: a word of a test packet at the checker, and the two counters, which are what the host
sees in every tick (rules R120, R667). Without a word the checker stands still and its pulse is 0 (rule R666). -/
def Obligations.TestCheckStep : Prop :=
  (∀ s : State, (outputs s).testPktCnt = s.tck.pktCnt ∧ (outputs s).testErrCnt = s.tck.errCnt) ∧
  (∀ s : State, runs s → rxPort s .test = none →
    ∃ t, step s = .next t ∧ t.tck = s.tck ∧ t.out.testError = false) ∧
  (∀ (w : Word) (s : State), runs s → rxPort s .test = some w →
    ∃ (mism : Bool) (t : State), exec .testCheck s = .next t ∧
      (mism = true ↔
        1024 ≤ s.tck.wcnt.toNat ∨ w.data ≠ pat (4 * s.tck.wcnt.toNat) ∨ w.k ≠ 0b0000#4) ∧
      (w.eop = false →
        t.tck.bad = (s.tck.bad || mism) ∧ t.tck.wcnt.toNat = min (s.tck.wcnt.toNat + 1) 1024 ∧
        t.tck.pktCnt = s.tck.pktCnt ∧ t.tck.errCnt = s.tck.errCnt ∧ t.out.testError = false) ∧
      (w.eop = true →
        t.out.testError = (s.tck.bad || mism || decide (s.tck.wcnt.toNat ≠ 1023)) ∧
        t.tck.bad = false ∧ t.tck.wcnt = 0#11 ∧
        t.tck.pktCnt = (s.tck.pktCnt + 1) % 2 ^ s.cfg.testCntBits ∧
        t.tck.errCnt =
          (if t.out.testError then (s.tck.errCnt + 1) % 2 ^ s.cfg.testCntBits else s.tck.errCnt)))

/-! ### The transmit blocks -/

/-- Rule R429 in its four states: with a word offered or a trailer to send, and without. -/
def Obligations.CrcAppendStep : Prop :=
  ∀ s : State, runs s →
    (txWrt s = none → s.cin.st ≠ .trailer →
      txCin s = none ∧ rdyCin s = rdyFrm s ∧ ∃ t, step s = .next t ∧ t.cin = s.cin) ∧
    ((txWrt s).isSome = true ∨ s.cin.st = .trailer → ∃ t, exec .crcAppend s = .next t ∧
      (rdyFrm s = false → t.cin = s.cin ∧ rdyCin s = false) ∧
      (∀ w, txWrt s = some w → s.cin.st = .first →
        txCin s = some ⟨w.data, w.k, w.eop && !w.crcEn⟩ ∧ rdyCin s = rdyFrm s ∧
        (rdyFrm s = true →
          t.cin.crc = 0xFFFFFFFF#32 ∧
          t.cin.st = if w.crcEn then (if w.eop then .trailer else .body) else (if w.eop then .first else .bypass))) ∧
      (∀ w, txWrt s = some w → s.cin.st = .body →
        txCin s = some ⟨w.data, w.k, false⟩ ∧ rdyCin s = rdyFrm s ∧
        (rdyFrm s = true →
          t.cin.crc = crcStep s.cin.crc w.data ∧ t.cin.st = if w.eop then .trailer else .body)) ∧
      (∀ w, txWrt s = some w → s.cin.st = .bypass →
        txCin s = some ⟨w.data, w.k, w.eop⟩ ∧ rdyCin s = rdyFrm s ∧
        (rdyFrm s = true → t.cin.crc = s.cin.crc ∧ t.cin.st = if w.eop then .first else .bypass)) ∧
      (s.cin.st = .trailer →
        txCin s = some ⟨rev32 s.cin.crc, 0b0000#4, true⟩ ∧ rdyCin s = false ∧
        (rdyFrm s = true → t.cin = ⟨.first, 0xFFFFFFFF#32⟩)))

/-- Rules R441 and R442: the idle inserter's step in both states. -/
def Obligations.IdleInsertStep : Prop :=
  ∀ s : State, runs s →
    ∃ t, exec .idleInsert s = .next t ∧
      (rdyAin s = false → t.idl = s.idl ∧ rdyIdl s = false) ∧
      (s.idl.st = .writeIdle →
        txIdl s = some ⟨0xB53C3CBC#32, 0b0111#4, false⟩ ∧ rdyIdl s = false ∧
        (rdyAin s = true → t.idl.cnt = 9999#14 ∧ t.idl.st = .copy)) ∧
      (s.idl.st = .copy →
        txIdl s = txFrm s ∧ rdyIdl s = rdyAin s ∧
        (rdyAin s = true →
          (t.idl.st = .writeIdle ↔
            txFrm s = none ∨ (∃ w, txFrm s = some w ∧ w.eop = true) ∨ s.idl.cnt = 0#14) ∧
          t.idl.cnt.toNat =
            if (txFrm s).isSome then s.idl.cnt.toNat - 1 else s.idl.cnt.toNat))

/-- Rule R491: the converter's output, its readiness, and its next state. -/
def Obligations.WordToCharsStep : Prop :=
  ∀ s : State, runs s →
    txCnv s = (if s.cnv.full
      then some ⟨BitVec.extractLsb' (8 * s.cnv.idx.toNat) 8 s.cnv.data, s.cnv.k.getLsbD s.cnv.idx.toNat⟩
      else none) ∧
    (rdyCnv s = true ↔ s.cnv.full = false ∨ s.cnv.idx = 3#2 ∧ rdyTin s = true) ∧
    (s.cnv.full = false → txAin s = none → ∃ t, step s = .next t ∧ t.cnv = s.cnv) ∧
    (s.cnv.full = true ∨ (txAin s).isSome = true → ∃ t, exec .wordToChars s = .next t ∧
      (∀ w, txAin s = some w → rdyCnv s = true → t.cnv = ⟨true, w.data, w.k, 0#2⟩) ∧
      (txAin s = none ∨ rdyCnv s = false →
        t.cnv =
          if s.cnv.full = true ∧ rdyTin s = true then
            (if s.cnv.idx = 3#2 then { s.cnv with full := false, idx := 0#2 }
             else { s.cnv with idx := s.cnv.idx + 1#2 })
          else s.cnv))

/-- Rules R501 to R504: the framer's four states. -/
def Obligations.FramePacketStep : Prop :=
  ∀ s : State, runs s →
    (s.frm = .idle → txCin s = none →
      txFrm s = none ∧ rdyFrm s = false ∧ ∃ t, step s = .next t ∧ t.frm = .idle) ∧
    (s.frm ≠ .idle ∨ (txCin s).isSome = true → ∃ t, exec .framePacket s = .next t ∧
      (s.frm = .idle → txFrm s = none ∧ rdyFrm s = false ∧ t.frm = .insertHeader) ∧
      (s.frm = .insertHeader →
        txFrm s = some ⟨0xFBFBFBFB#32, 0b1111#4, false⟩ ∧ rdyFrm s = false ∧
        t.frm = if rdyIdl s then .copy else .insertHeader) ∧
      (s.frm = .copy →
        txFrm s = (txCin s).map (fun w => ⟨w.data, w.k, false⟩) ∧ rdyFrm s = rdyIdl s ∧
        (t.frm = .insertFooter ↔ rdyIdl s = true ∧ ∃ w, txCin s = some w ∧ w.eop = true) ∧
        (t.frm ≠ .insertFooter → t.frm = .copy)) ∧
      (s.frm = .insertFooter →
        txFrm s = some ⟨0xFDFDFDFD#32, 0b1111#4, true⟩ ∧ rdyFrm s = false ∧
        t.frm = if rdyIdl s then .idle else .insertFooter))

/-- The selection of rule R683, at both levels: the character offered is the trigger's, else the converter's;
the word entering the converter is the ack's, else the idle word, else the framer's; and every class stalls
the classes below it while it emits. The class of the character the converter holds is that of the word it
took, so the rule's second, third and fourth row are the word level's three. A character is transferred when the
consumer of `tx_out` takes the one offered (rules R15, R118). -/
def Obligations.PrioritySelectStep : Prop :=
  ∀ s : State, runs s →
    ∃ t, exec .prioritySelect s = .next t ∧
      t.out.txTaken = (t.out.txOut.isSome && s.inp.txReady) ∧
      (s.tin.st = .send → t.out.txOut = some (trigSeq s.tin.mode s.tin.delay s.tin.i.toNat) ∧ rdyTin s = false) ∧
      (s.tin.st = .copy → t.out.txOut = txCnv s) ∧
      (rdyCnv s = true →
        ∀ v : Option Word,
          v = (if s.ain = .ackK then some ioackWord
            else if s.ain = .ackData then some ackDataWord
            else if s.idl.st = .writeIdle then some idleWord
            else txFrm s) →
          t.cnv.full = v.isSome ∧ ∀ w, v = some w → t.cnv.data = w.data ∧ t.cnv.k = w.k ∧ t.cnv.idx = 0#2) ∧
      (s.ain ≠ .copy → rdyAin s = false) ∧ (s.idl.st = .writeIdle → rdyIdl s = false) ∧
      (s.frm ≠ .copy → rdyFrm s = false) ∧ (s.cin.st = .trailer → rdyCin s = false)

/-! ### Host operations -/

/-- Rule R603: the start strobes, read only in IDLE; `start_cmd` with a nonzero length wins. Rule R604: `busy`
is 1 exactly outside IDLE. The blocks behind the writer are as in the tick without the strobe. In IDLE the
writer offers nothing, and a tick with no strobe that starts it changes nothing of it but what the host's
write ports may (rules R603, R14). -/
def Obligations.HostStartStep : Prop :=
  ∀ s : State, runs s →
    ((outputs s).busy = true ↔ s.wrt.st ≠ .idle) ∧
    (s.wrt.st = .idle → txWrt s = none ∧
      (s.inp.host.startTest = false → ¬ (s.inp.host.startCmd = true ∧ s.wrt.len ≠ 0) →
        ∃ t, step s = .next t ∧ t.wrt = { s.wrt with len := t.wrt.len, buf := t.wrt.buf })) ∧
    (∃ t, exec .hostStartCmd s = .next t ∧
      (s.wrt.st = .idle → s.wrt.len ≠ 0 →
        t.wrt.st = .cmd ∧ t.wrt.idx = 0 ∧ t.wrt.curLen = min s.wrt.len s.cfg.bufWords ∧
        t.wrt.n = s.wrt.n) ∧
      (s.wrt.st = .idle → s.wrt.len = 0 →
        t.wrt.st = (if s.inp.host.startTest then .testType else .idle) ∧ t.wrt.curLen = s.wrt.curLen ∧
        t.wrt.idx = s.wrt.idx ∧ t.wrt.n = (if s.inp.host.startTest then 0#12 else s.wrt.n)) ∧
      (s.wrt.st ≠ .idle → t.wrt = (tick s).wrt) ∧ t.ain = (tick s).ain ∧ t.tin = (tick s).tin ∧
      sameFramers t (tick s) ∧ t.rsm = (tick s).rsm ∧ sameReceivers t (tick s)) ∧
    (∃ t, exec .hostStartTest s = .next t ∧
      (s.wrt.st = .idle → ¬ (s.inp.host.startCmd = true ∧ s.wrt.len ≠ 0) →
        t.wrt.st = .testType ∧ t.wrt.n = 0#12 ∧ t.wrt.idx = s.wrt.idx ∧ t.wrt.curLen = s.wrt.curLen) ∧
      (s.wrt.st = .idle → s.inp.host.startCmd = true → s.wrt.len ≠ 0 → t.wrt = (tick s).wrt) ∧
      (s.wrt.st ≠ .idle → t.wrt = (tick s).wrt) ∧ t.ain = (tick s).ain ∧ t.tin = (tick s).tin ∧
      sameFramers t (tick s) ∧ t.rsm = (tick s).rsm ∧ sameReceivers t (tick s))

/-- Rules R601 and R602: the two write ports of the writer. An index outside the buffer writes nothing; every
other word of the buffer reads as before; the writer's other elements, so the packet in progress too, and all
other blocks are as in the tick without the write. -/
def Obligations.HostWriterWrites : Prop :=
  ∀ s : State, runs s →
    (∀ (a : Nat) (v : Data), ∃ t, exec (.hostBufWrite a v) s = .next t ∧
      (∀ b, memRead t.wrt.buf b = if b = a ∧ a < s.cfg.bufWords then some v else memRead s.wrt.buf b) ∧
      (s.cfg.bufWords ≤ a → t.wrt.buf = s.wrt.buf) ∧
      t.wrt = { (tick s).wrt with buf := t.wrt.buf } ∧ t.ain = (tick s).ain ∧ t.tin = (tick s).tin ∧
      sameFramers t (tick s) ∧ t.rsm = (tick s).rsm ∧ sameReceivers t (tick s)) ∧
    (∀ n : Nat, n < 2 ^ s.cfg.lenBits → ∃ t, exec (.hostLenWrite n) s = .next t ∧
      t.wrt = { (tick s).wrt with len := n } ∧ t.ain = (tick s).ain ∧ t.tin = (tick s).tin ∧
      sameFramers t (tick s) ∧ t.rsm = (tick s).rsm ∧ sameReceivers t (tick s))

/-- Rules R647 and R648: the read cursor takes the low bits of the host's value, while the overflow test of
the same tick uses the old one; an acknowledge clears the sticky flag unless an overflow sets it. -/
def Obligations.HostRingWrites : Prop :=
  ∀ s : State, runs s →
    (∀ n : Nat, ∃ t, exec (.hostRdWrite n) s = .next t ∧
      t.rsm = { (tick s).rsm with rd := n % s.cfg.nSlots } ∧
      t.out.bufferOverflow = (tick s).out.bufferOverflow ∧ sameReceivers t (tick s) ∧
      sameTransmit t (tick s)) ∧
    (∃ t, exec .hostAckErrors s = .next t ∧
      t.rsm = { (tick s).rsm with bufferError := t.out.bufferOverflow } ∧
      t.out.bufferOverflow = (tick s).out.bufferOverflow ∧ sameReceivers t (tick s) ∧
      sameTransmit t (tick s))

/-- Rule R649: the slot read port gives the word and the length as they stand in this tick, and a read has no
side effect: but for the tick's outputs the next state is that of the tick without it. That a word at or
beyond the slot's length, or in an unpublished slot, is the last one written there is the model's choice (log
entry 23): item 9 of 93_implementation_defined.md leaves any value there. -/
def Obligations.HostSlotReadStep : Prop :=
  ∀ (slot word : Nat) (s : State), runs s → slot < s.cfg.nSlots →
    ∃ t, exec (.hostSlotRead slot word) s = .next t ∧
      (∀ v, word < s.cfg.slotWords → memRead s.rsm.mem (slot * s.cfg.slotWords + word) = some v →
        t.out.slotRdata = v) ∧
      t.out.slotLenRdata = slotLen s slot ∧ t.out.wrPtr = s.rsm.wr ∧ t.out.rdPtr = s.rsm.rd ∧
      { t with out := (tick s).out } = tick s

/-- Rules R462, R465, R467 and R480: a trigger strobe in COPY lets the character of its tick through and samples
its operands, in SEND it changes nothing; a trigger-ack strobe in COPY lets the word of its tick through, in
ACK_K and ACK_DATA it is ignored. Without its strobe an inserter in COPY is transparent and stays as it is
(rules R462, R480, R14). -/
def Obligations.HostStrobesStep : Prop :=
  (∀ s : State, runs s →
    (s.tin.st = .copy → s.inp.host.trigStrobe = false →
      rdyTin s = s.inp.txReady ∧ ∃ t, step s = .next t ∧ t.tin = s.tin ∧ t.out.txOut = txCnv s) ∧
    (s.ain = .copy → s.inp.host.trigAckStrobe = false →
      txAin s = txIdl s ∧ rdyAin s = rdyCnv s ∧ ∃ t, step s = .next t ∧ t.ain = .copy)) ∧
  (∀ (d : Byte) (m : Bool) (s : State), runs s →
    (∃ t, exec (.hostTrigStrobe d m) s = .next t ∧
      (s.tin.st = .copy →
        t.tin = ⟨.send, 0#3, d, m⟩ ∧ t.out.txOut = txCnv s ∧ rdyTin s = s.inp.txReady) ∧
      (s.tin.st = .send → t.tin = (tick s).tin ∧ t.tin.delay = s.tin.delay ∧ t.tin.mode = s.tin.mode) ∧
      t.wrt = (tick s).wrt ∧ t.ain = (tick s).ain ∧ sameFramers t (tick s) ∧ t.rsm = (tick s).rsm ∧
      sameReceivers t (tick s)) ∧
    (∃ t, exec .hostTrigAckStrobe s = .next t ∧
      (s.ain = .copy → t.ain = .ackK ∧ txAin s = txIdl s ∧ rdyAin s = rdyCnv s) ∧
      (s.ain ≠ .copy → t.ain = (tick s).ain) ∧
      t.wrt = (tick s).wrt ∧ t.tin = (tick s).tin ∧ sameFramers t (tick s) ∧ t.rsm = (tick s).rsm ∧
      sameReceivers t (tick s)))

/-! ### The step -/

/-- A step runs the row it decodes: that row takes place in the state, `step` is `exec` of it, which is one
tick of the core, and every row that takes place in the state names this same tick. What the tick shows outside
is `outputs s`, and it moves to the next pending inputs and counts itself (log entry 6). The labelling is the
model's (log entry 4). -/
def Obligations.StepRunsDecodedRow : Prop :=
  ∀ s : State, s.cfg.valid = true →
    occurs (fetch s) s = true ∧ step s = exec (fetch s) s ∧ step s = .next (tick s) ∧
    (tick s).out = outputs s ∧ (tick s).inp = s.pending.headD Inputs.quiet ∧
    (tick s).pending = s.pending.tail ∧ (tick s).ticks = s.ticks + 1 ∧ (tick s).cfg = s.cfg ∧
    ∀ i, occurs i s = true → exec i s = .next (tick s)

/-- A table word placed in a state is what the next step fetches and runs (log entry 5). An idle word whose
corrected character is a trigger or ack marker is read by the reader before the classifier. -/
def Obligations.PlacedWordRuns : Prop :=
  ∀ (nbits w : Nat) (i : Instr) (s : State), s.cfg = Config.examples → decodeTableWord nbits w = some i →
    (∀ r, i = .rxIdle r → voteMark r.k = false) →
      fetch (s.withFetchWord nbits w) = i ∧ step (s.withFetchWord nbits w) = exec i (s.withFetchWord nbits w)

/-- Some words written out from the spec's encodings decode to the rows they stand for. The type codes are the
examples' (log entries 1 and 10), the place of equal codes the model's (log entry 5). -/
def Obligations.KnownWordsDecode : Prop :=
  decodeTableWord 40 0xFFBFBFBFB = some .startWord ∧
  decodeTableWord 40 0xFFDFDFDFD = some .endWord ∧
  decodeTableWord 40 0x7B53C3CBC = some .idleWord ∧
  decodeTableWord 40 0xFDCDCDCDC = some .ioackWord ∧
  decodeTableWord 40 0x001010101 = some .ackDataWord ∧
  decodeTableWord 40 0x004040404 = some .typeTestWord ∧
  decodeTableWord 40 0x009090909 = some (.typeWord 0x09#8) ∧
  decodeTableWord 40 0x007060504 = some (.patWord 4#12) ∧
  decodeTableWord 40 0x04F1FDD6C = some (.crcTrailerWord 0x4F1FDD6C#32) ∧
  decodeTableWord 16 0x1FB = some .rxStart ∧ decodeTableWord 16 0x15C = some .rxTrig282 ∧
  decodeTableWord 16 0x1DC = some .rxIoack ∧ decodeTableWord 16 0x006 = some .rxTypeCommand06

/-- Decoding the code of any well-formed row, at the place it stands, gives back the row with every operand. -/
def Obligations.DecodeInvertsEncode : Prop :=
  ∀ (c : Config) (i : Instr), c.valid = true → wellFormed c i = true →
    decode c (placeOf i) (encode c i) = .ok i

/-- What is decoded from bits at a place is a well-formed row of that place whose code has exactly those
bits: no bit of a word, a character or a sequence is ignored. -/
def Obligations.DecodedBitsAreTheCode : Prop :=
  ∀ (c : Config) (p : Place) (code : Code) (i : Instr), c.valid = true → decode c p code = .ok i →
    p ≠ .hostPort → encode c i = code ∧ placeOf i = p ∧ wellFormed c i = true

/-- Rule R705: with a configuration that rule R10 admits no row and no step ends in a fault or a refusal,
whatever the state; any other configuration is refused (93_implementation_defined.md items 1 and 4; log entry 19). -/
def Obligations.NothingStopsTheCore : Prop :=
  ∀ (i : Instr) (s : State),
    (s.cfg.valid = true → (∃ t, exec i s = .next t) ∧ ∃ t, step s = .next t) ∧
    (s.cfg.valid = false → exec i s = .refused .badConfiguration ∧ step s = .refused .badConfiguration)

/-- A row that takes place, or whose signals are driven, is one tick; any other is turned away and changes
nothing (log entry 4). -/
def Obligations.RowIsTickOrTurnedAway : Prop :=
  ∀ (i : Instr) (s : State), s.cfg.valid = true →
    (driven i = true → exec i s = .next (tick (driveRow i s)) ∧ occurs i (driveRow i s) = true) ∧
    (driven i = false → occurs i s = true → exec i s = .next (tick s)) ∧
    (driven i = false → occurs i s = false → exec i s = .next s)

/-! ### Reset -/

/-- Rule R750: a step with `rst` 1 gives every state element its reset value, whatever the host writes in the
same tick. Neither memory is written, and no word of either has a defined value after the tick (rules R124,
R752, 93_implementation_defined.md item 6): how this and R750's "neither cleared" agree is DEDUCED (log
entry 8). -/
def Obligations.ResetTick : Prop :=
  ∀ s : State, s.cfg.valid = true → s.inp.rst = true →
    ∃ t, step s = .next t ∧
      t.dcd = State.reset.dcd ∧ t.trd = State.reset.trd ∧ t.ard = State.reset.ard ∧
      t.cls = State.reset.cls ∧ t.chkHb = State.reset.chkHb ∧ t.chkCmd = State.reset.chkCmd ∧
      t.hbr = State.reset.hbr ∧ t.tck = State.reset.tck ∧ t.cin = State.reset.cin ∧
      t.frm = State.reset.frm ∧ t.idl = State.reset.idl ∧ t.ain = State.reset.ain ∧
      t.cnv = State.reset.cnv ∧ t.tin = State.reset.tin ∧
      t.wrt = State.reset.wrt ∧ t.rsm = ⟨0, 0, 0, [], List.replicate s.cfg.nSlots 0, false⟩ ∧
      ∀ a, memRead t.wrt.buf a = none ∧ memRead t.rsm.mem a = none

/-- Rule R753, with the values rules R103 to R117 give: the state just after reset, every element of every
block but the words of the two memories, which have no reset value (rule R124). -/
def Obligations.ResetValues : Prop :=
  State.reset.dcd =
    ⟨false, 0#32, 0#4, ⟨0#8, 0#8, 0#8, 0#8⟩, ⟨false, false, false, false⟩, false, 0#32, 0#4, 0#8, false⟩ ∧
  State.reset.trd = ⟨.copy, 0#8, 0#8, false⟩ ∧ State.reset.ard = ⟨.copy, false⟩ ∧
  State.reset.cls = ⟨.scan, .stream, false, 0#32, 0#4⟩ ∧
  State.reset.chkHb = ⟨0xFFFFFFFF#32, false, 0#32, 0#4⟩ ∧
  State.reset.chkCmd = ⟨0xFFFFFFFF#32, false, 0#32, 0#4⟩ ∧
  State.reset.hbr = ⟨0#2, 0#32, 0#32, 0#32, 0#32, 0#64⟩ ∧ State.reset.tck = ⟨0#11, false, 0, 0⟩ ∧
  State.reset.rsm =
    ⟨0, 0, 0, State.reset.rsm.mem, List.replicate State.reset.cfg.nSlots 0, false⟩ ∧
  State.reset.wrt = ⟨.idle, 0, 0, 0#12, 0, State.reset.wrt.buf⟩ ∧
  State.reset.cin = ⟨.first, 0xFFFFFFFF#32⟩ ∧ State.reset.frm = .idle ∧
  State.reset.idl = ⟨.writeIdle, 9999#14⟩ ∧ State.reset.ain = .copy ∧
  State.reset.cnv = ⟨false, 0#32, 0#4, 0#2⟩ ∧ State.reset.tin = ⟨.copy, 0#3, 0#8, false⟩ ∧
  (outputs State.reset).busy = false ∧ (outputs State.reset).trigDetected = false ∧
  (outputs State.reset).ackReceived = false ∧ (outputs State.reset).decodeError = false ∧
  (outputs State.reset).crcErrorHb = false ∧ (outputs State.reset).crcErrorCmd = false ∧
  (outputs State.reset).testError = false ∧ (outputs State.reset).bufferOverflow = false

/-- The state after reset meets every invariant below. Its parameters are the model's choice, the
examples' of the spec (log entry 1), and its memories have no written word. -/
def Obligations.ResetIsLegal : Prop := Legal State.reset

/-! ### Invariants -/

/-- Rules R103 to R117, R200 and R206: the parameters stay admissible, both memories stay canonical and inside
their bounds, and every counter, cursor and length stays in its range. -/
def Obligations.StepKeepsMemoryAndRanges : Prop :=
  ∀ s t : State, LegalMemory s → LegalRanges s →
    (step s = .next t ∨ ∃ i, exec i s = .next t) → LegalMemory t ∧ LegalRanges t

/-- Rules R401, R402 and R405: every step keeps each decoder stage at the terms and the vote of the word it
holds, so that what the receive blocks read is the majority of that word. -/
def Obligations.StepKeepsVotes : Prop :=
  ∀ s t : State, LegalVotes s → (step s = .next t ∨ ∃ i, exec i s = .next t) →
    LegalVotes t ∧ ∀ w, rxDcd t = some w → w = voted ⟨w.data, w.k⟩

/-- Every step keeps the receive blocks agreed on where a packet stands: a checker holds or a consumer counts
only words of the packet the classifier is in, on the port it selected. -/
def Obligations.StepKeepsReceiveAligned : Prop :=
  ∀ s t : State, ReceiveAligned s → (step s = .next t ∨ ∃ i, exec i s = .next t) → ReceiveAligned t

/-- Every step keeps the transmit blocks agreed on where a packet stands (rules R429, R503, R508): the CRC
inserter's state follows the writer's, and the framer copies exactly while a packet passes. -/
def Obligations.StepKeepsTransmitAligned : Prop :=
  ∀ s t : State, LegalMemory s → LegalRanges s → TransmitAligned s →
    (step s = .next t ∨ ∃ i, exec i s = .next t) → TransmitAligned t

/-! ### Frames and isolation -/

/-- What any row leaves unchanged of the host's registers, the two memories and the receive blocks, and no
more: a host-written element without its write enable, every word of either memory but the one index its
write port names, and every receive element whose block took no word. Every row runs a whole tick, in which
the blocks not named here may go on. The pins are those of the row (`driveRow`). -/
def Obligations.UnwrittenWordsAndIdleReceiversKeep : Prop :=
  ∀ (i : Instr) (s t : State), s.inp.rst = false → exec i s = .next t →
    t.cfg = s.cfg ∧
    ((driveRow i s).inp.host.lenWe = false → t.wrt.len = s.wrt.len) ∧
    (∀ a, ¬ ((driveRow i s).inp.host.bufWe = true ∧ (driveRow i s).inp.host.bufAddr = a) →
      memRead t.wrt.buf a = memRead s.wrt.buf a) ∧
    ((driveRow i s).inp.host.rdWe = false → t.rsm.rd = s.rsm.rd) ∧
    (∀ a, a ≠ slotIndex s.cfg s.rsm.wr s.rsm.wcount → memRead t.rsm.mem a = memRead s.rsm.mem a) ∧
    (rxCmd s = none →
      t.rsm.mem = s.rsm.mem ∧ t.rsm.wcount = s.rsm.wcount ∧ t.rsm.wr = s.rsm.wr ∧
      t.rsm.slotLen = s.rsm.slotLen) ∧
    (rxHb s = none → t.hbr = s.hbr) ∧ (rxPort s .test = none → t.tck = s.tck) ∧
    (rxPort s .heartbeat = none → t.chkHb = s.chkHb) ∧ (rxPort s .command = none → t.chkCmd = s.chkCmd) ∧
    (clsTaken s = none → t.cls = s.cls) ∧
    (rxTrd s = none → t.ard.st = s.ard.st) ∧
    (rxDcd s = none → t.trd.st = s.trd.st ∧ t.trd.delay = s.trd.delay ∧ t.trd.linktrig = s.trd.linktrig)

/-- The two directions of the core share no state: the receive blocks' next state and every output of theirs
depend on the receive blocks and the receive inputs only, the transmit blocks' on the transmit blocks and
inputs only (`ticks` stands for the unwritten words of the command buffer). The slot read port, a read of the
reassembler, is the statement HostSlotReadStep. -/
def Obligations.DirectionsAreIsolated : Prop :=
  ∀ s s' t t' : State, step s = .next t → step s' = .next t' → s.cfg = s'.cfg → s.inp.rst = s'.inp.rst →
    (sameReceivers s s' → s.rsm = s'.rsm → s.inp.rxValid = s'.inp.rxValid → s.inp.rxWord = s'.inp.rxWord →
      s.inp.streamReady = s'.inp.streamReady → sameReceivePins s.inp.host s'.inp.host →
        sameReceivers t t' ∧ t.rsm = t'.rsm ∧ sameReceiveOutputs t.out t'.out) ∧
    (sameTransmit s s' → s.ticks = s'.ticks → s.inp.txReady = s'.inp.txReady →
      sameTransmitPins s.inp.host s'.inp.host →
        sameTransmit t t' ∧ sameTransmitOutputs t.out t'.out)

/-- Rule R755: `link_ready` has no effect on any block, nor on any output. -/
def Obligations.LinkReadyHasNoEffect : Prop :=
  ∀ (b : Bool) (s : State), s.cfg.valid = true →
    step { s with inp := { s.inp with linkReady := b } } = step s

/-! ### Transactions -/

/-- Rules R403 and R404: a bit of the corrected character is 1 exactly when at least three copies have it;
three equal copies carry the vote whatever the fourth; and one differing copy a bit, even a different one at
each bit, changes nothing. -/
def Obligations.VoteIsMajority : Prop :=
  (∀ (w : RawWord) (j : Nat), j < 8 →
    ((voted w).dchar.getLsbD j = true ↔
      3 ≤ ((lane w.data 0).getLsbD j).toNat + ((lane w.data 1).getLsbD j).toNat +
        ((lane w.data 2).getLsbD j).toNat + ((lane w.data 3).getLsbD j).toNat)) ∧
  (∀ w : RawWord,
    ((voted w).dcharK = true ↔ 3 ≤ w.k[0].toNat + w.k[1].toNat + w.k[2].toNat + w.k[3].toNat)) ∧
  (∀ (w : RawWord) (v : Byte),
    (∀ j, j < 8 → ∀ a b, a < 4 → b < 4 → (lane w.data a).getLsbD j ≠ v.getLsbD j →
      (lane w.data b).getLsbD j ≠ v.getLsbD j → a = b) → (voted w).dchar = v)

/-- Rules R423, R424 and R425: a correct trailer brings the register to 0 for every payload. -/
def Obligations.CrcResidueIsZero : Prop :=
  ∀ p : List Data, crcStep (crcSeq p) (rev32 (crcSeq p)) = 0x00000000#32

/-- Rule R426: one flipped bit in one payload word, or in the trailer, leaves a register that is not 0. -/
def Obligations.CrcDetectsOneFlippedBit : Prop :=
  ∀ (p : List Data) (b : Nat), b < 32 →
    crcStep (crcSeq p) (rev32 (crcSeq p) ^^^ (1#32 <<< b)) ≠ 0x00000000#32 ∧
    ∀ (j : Nat) (h : j < p.length),
      crcStep (crcSeq (p.set j (p[j] ^^^ (1#32 <<< b)))) (rev32 (crcSeq p)) ≠ 0x00000000#32

/-- The first sentence of rule R422, with rule R13: the reflected form computes the same step. -/
def Obligations.ReflectedCrcAgrees : Prop :=
  (∀ (x : Data) (i : Nat), i < 32 → (rev32 x).getLsbD i = x.getLsbD (31 - i)) ∧
  ∀ r d : Data, crcStep r d = rev32 (reflBits (rev32 r) d 32)

/-- Rule R430: the transmit CRC inserter on a packet whose consumer is always ready. A command packet gets
the trailer of its words after the first; a packet with `crc_en` 0 passes unchanged. -/
def Obligations.CrcInserterOnAPacket : Prop :=
  ∀ (crc : Data) (ty : Data) (ps : List Data) (rest : List WWord),
    (cinFeed (ps.length + 2) ⟨.first, crc⟩
        ((asPacket ((ty :: ps).map fun d => (d, 0#4))).map (fun w => ⟨w.data, w.k, w.eop, true⟩) ++ rest) =
      (⟨.first, crcSeed⟩, rest,
        asPacket ((ty :: ps).map (fun d => (d, 0#4)) ++ [(rev32 (crcSeq ps), 0#4)]))) ∧
    (cinFeed (ps.length + 1) ⟨.first, crc⟩
        ((asPacket ((ty :: ps).map fun d => (d, 0#4))).map (fun w => ⟨w.data, w.k, w.eop, false⟩) ++ rest) =
      (⟨.first, crcSeed⟩, rest, asPacket ((ty :: ps).map fun d => (d, 0#4))))

/-- Rule R431: a checker on a packet `[w0, .., wj-1, X]` delivers the words before `X` as a packet, and
pulses once, with `X`, exactly when the register after `X` is not 0. -/
def Obligations.CrcCheckerOnAPacket : Prop :=
  ∀ (b : Chk) (ws : List (Data × Marks)) (x : Data × Marks), b.hv = false → b.crc = crcSeed →
    (chkFeed b (asPacket (ws ++ [x]))).2 =
      (asPacket ws,
        List.replicate ws.length false ++
          [decide (crcStep (crcSeq (ws.map (·.1))) x.1 ≠ 0x00000000#32)]) ∧
    (chkFeed b (asPacket (ws ++ [x]))).1.hv = false ∧ (chkFeed b (asPacket (ws ++ [x]))).1.crc = crcSeed

/-- Rules R505 and R506: the framer wraps a packet of `m` words in its two markers in `m + 3` ticks, every
`eop` but the footer's cleared. -/
def Obligations.FramerOnAPacket : Prop :=
  ∀ (ws : List (Data × Marks)) (rest : List Word), ws ≠ [] →
    frmFeed (ws.length + 3) .idle (asPacket ws ++ rest) =
      (.idle, rest,
        [⟨0xFBFBFBFB#32, 0b1111#4, false⟩] ++ ws.map (fun w => ⟨w.1, w.2, false⟩) ++
          [⟨0xFDFDFDFD#32, 0b1111#4, true⟩])

/-- Rule R445: from COPY just after an idle word, with words without `eop` always offered, exactly 10000 words
pass, then one idle word, then the stream resumes. -/
def Obligations.IdlePeriodIsTenThousand : Prop :=
  ∀ (ws rest : List Word) (w : Word), ws.length = 10000 → (∀ v ∈ ws, v.eop = false) →
    idlFeed 10002 ⟨.copy, 9999#14⟩ (ws ++ w :: rest) =
      ((idlFeed 1 ⟨.copy, 9999#14⟩ (w :: rest)).1, rest,
        ws ++ [⟨0xB53C3CBC#32, 0b0111#4, false⟩, w])

/-- Rule R492: with an always ready consumer each word becomes its four characters, lane 0 first, with no gap
between words. -/
def Obligations.ConverterOnWords : Prop :=
  ∀ (ws : List Word) (b : Cnv), b.full = false →
    (cnvFeed (4 * ws.length + 1) b ws).2 = ([], (ws.map charsOf).flatten)

/-- Rule R537: a well-formed packet of a known type, with idle words anywhere, is delivered on its type's port
alone, `eop` on its last word only, with no decode error, and the classifier scans again. -/
def Obligations.ClassifierOnAPacket : Prop :=
  ∀ (c : Config) (b : Cls) (ws : List DWord) (start ty stop : DWord) (vs : List DWord) (p : Port),
    b.st = .scan →
    ws.filter (fun w => !isIdle w) = start :: ty :: vs ++ [stop] →
    isStart start = true → isStart ty = false → isEnd ty = false → typeOf c ty = some p →
    isEnd stop = true → (∀ v ∈ vs, isStart v = false ∧ isEnd v = false) →
      (clsFeed c b ws).2.1 = (asPacket (vs.map fun v => (v.data, v.k))).map (fun w => (p, w)) ∧
      (clsFeed c b ws).2.2 = List.replicate ws.length false ∧
      (clsFeed c b ws).1.st = .scan ∧ (clsFeed c b ws).1.hv = false

/-- Rules R609 and R610: what the writer sends after each start, its consumer always ready: the command
buffer's first words as they stand, or the type word and the 1024 pattern words of the self-test. -/
def Obligations.WriterOnAPacket : Prop :=
  ∀ (c : Config) (read : Nat → Data) (b : Wrt), 1 ≤ c.bufWords → b.st = .idle →
    (b.len ≠ 0 →
      wrtSends c read (min b.len c.bufWords + 1) (wrtRun c b true false true) =
        (asPacket ((List.range (min b.len c.bufWords)).map fun j => (read j, 0b0000#4))).map
          (fun w => ⟨w.data, w.k, w.eop, true⟩)) ∧
    wrtSends c read 1026 (wrtRun c b false true true) =
      ⟨0x04040404#32, 0b0000#4, false, false⟩ ::
        (asPacket testPattern).map (fun w => ⟨w.data, w.k, w.eop, false⟩)

/-- Rule R663: the values after a packet at the heartbeat reader: replaced exactly by a packet of three words
or more whose CRC check passed. -/
def Obligations.HeartbeatOnAPacket : Prop :=
  ∀ (b : Hbr) (e : Bool) (ws : List (Data × Marks)), b.cnt = 0#2 → ws ≠ [] →
    (hbrFeed b e (asPacket ws)).cnt = 0#2 ∧
    (∀ h t1 t0 more, ws = h :: t1 :: t0 :: more → e = false →
      (hbrFeed b e (asPacket ws)).hostId = be32 h.1 ∧
      (hbrFeed b e (asPacket ws)).timestamp = be32 t1.1 ++ be32 t0.1) ∧
    (ws.length < 3 ∨ e = true →
      (hbrFeed b e (asPacket ws)).hostId = b.hostId ∧
      (hbrFeed b e (asPacket ws)).timestamp = b.timestamp)

/-- Rule R652: a packet at the reassembler: its words, as many as a slot holds, in the slot the write cursor
names; published when it passed its CRC check and the ring has a free slot, else reported by the sticky flag
when only the slot was missing. -/
def Obligations.ReassemblerOnAPacket : Prop :=
  ∀ (c : Config) (b : Rsm) (e : Bool) (ws : List (Data × Marks)), b.wcount = 0 → ws ≠ [] →
    b.wr < b.slotLen.length → 1 ≤ c.slotWords →
    let r := rsmFeed c b e (asPacket ws)
    r.wcount = 0 ∧ r.rd = b.rd ∧
    (∀ (j : Nat) (h : j < ws.length), j < c.slotWords →
      memRead r.mem (b.wr * c.slotWords + j) = some ws[j].1) ∧
    (∀ a, (a < b.wr * c.slotWords ∨ b.wr * c.slotWords + c.slotWords ≤ a) →
      memRead r.mem a = memRead b.mem a) ∧
    (e = true → r.wr = b.wr ∧ r.slotLen = b.slotLen ∧ r.bufferError = b.bufferError) ∧
    (e = false → r.slotLen = b.slotLen.set b.wr (min ws.length c.slotWords) ∧
      ((b.wr + 1) % c.nSlots ≠ b.rd → r.wr = (b.wr + 1) % c.nSlots ∧ r.bufferError = b.bufferError) ∧
      ((b.wr + 1) % c.nSlots = b.rd → r.wr = b.wr ∧ r.bufferError = true))

/-- Rule R668: a packet at the test checker is counted once, and counted as bad, with one pulse at its last
word, exactly when it is not the 1024 words of the self-test with markers 0. -/
def Obligations.TestCheckerOnAPacket : Prop :=
  ∀ (c : Config) (b : Tck) (ws : List (Data × Marks)), b.wcnt = 0#11 → b.bad = false → ws ≠ [] →
    let r := tckFeed c b (asPacket ws)
    r.1.wcnt = 0#11 ∧ r.1.bad = false ∧ r.1.pktCnt = (b.pktCnt + 1) % 2 ^ c.testCntBits ∧
    r.1.errCnt = (if ws = testPattern then b.errCnt else (b.errCnt + 1) % 2 ^ c.testCntBits) ∧
    r.2 = List.replicate (ws.length - 1) false ++ [decide (ws ≠ testPattern)]

end
end

