-- ==== Sys2Proof/Laws/Formats.lean ====
section
/-!
SUPPORT. Laws/Formats.lean: the bits of each format (rules R12, R300, R301, R333), and that the fields of a
format give back what was put in them.
-/
namespace Sys2Proof.Machine

/-! ### Bit by bit -/

theorem chr9_bit (c : Byte) (k : Bool) (i : Nat) :
    (chr9 c k).getLsbD i = if i < 8 then c.getLsbD i else (BitVec.ofBool k).getLsbD (i - 8) := by
  have h := BitVec.getLsbD_append (x := BitVec.ofBool k) (y := c) (i := i)
  simpa [chr9, Bool.cond_eq_ite] using h

theorem word36_bit (d : Data) (k : Marks) (i : Nat) :
    (word36 d k).getLsbD i = if i < 32 then d.getLsbD i else k.getLsbD (i - 32) := by
  have h := BitVec.getLsbD_append (x := k) (y := d) (i := i)
  simpa [word36, Bool.cond_eq_ite] using h

theorem word4_bit (c0 c1 c2 c3 : Byte) (i : Nat) :
    (word4 c0 c1 c2 c3).getLsbD i =
      if i < 8 then c0.getLsbD i
      else if i < 16 then c1.getLsbD (i - 8)
      else if i < 24 then c2.getLsbD (i - 16)
      else c3.getLsbD (i - 24) := by
  have h1 := BitVec.getLsbD_append (x := c3 ++ c2 ++ c1) (y := c0) (i := i)
  have h2 := BitVec.getLsbD_append (x := c3 ++ c2) (y := c1) (i := i - 8)
  have h3 := BitVec.getLsbD_append (x := c3) (y := c2) (i := i - 8 - 8)
  have e : (word4 c0 c1 c2 c3).getLsbD i = (c3 ++ c2 ++ c1 ++ c0).getLsbD i := rfl
  rw [e, h1, h2, h3]
  by_cases a : i < 8
  · simp [a]
  · by_cases b : i < 16
    · have : i - 8 < 8 := by omega
      simp [a, b, this]
    · by_cases c : i < 24
      · have h8 : ¬ i - 8 < 8 := by omega
        have h16 : i - 8 - 8 < 8 := by omega
        have e16 : i - 8 - 8 = i - 16 := by omega
        simp [a, b, c, h8, e16 ▸ h16, e16]
      · have h8 : ¬ i - 8 < 8 := by omega
        have h16 : ¬ i - 16 < 8 := by omega
        have e16 : i - 8 - 8 = i - 16 := by omega
        have e24 : i - 16 - 8 = i - 24 := by omega
        simp [a, b, c, h8, h16, e16, e24]

/-- One more character above `n` bits. -/
theorem above_bit {n m : Nat} (x : BitVec m) (y : BitVec n) (i : Nat) (h : n ≤ i) :
    (x ++ y).getLsbD i = x.getLsbD (i - n) := by
  rw [BitVec.getLsbD_append]; simp [Nat.not_lt.2 h]

/-- The bits of a sequence, character by character. -/
theorem below_bit {n m : Nat} (x : BitVec m) (y : BitVec n) (i : Nat) (h : i < n) :
    (x ++ y).getLsbD i = y.getLsbD i := by
  rw [BitVec.getLsbD_append]; simp [h]

/-! ### Fields -/

@[simp] theorem chr9_value (c : Byte) (k : Bool) : BitVec.extractLsb' 0 8 (chr9 c k) = c := by
  apply BitVec.eq_of_getLsbD_eq
  intro i hi
  rw [BitVec.getLsbD_extractLsb', Nat.zero_add, chr9_bit]
  simp [hi]

@[simp] theorem chr9_mark (c : Byte) (k : Bool) : (chr9 c k).getLsbD 8 = k := by
  rw [chr9_bit]; simp

theorem chr9_inj (c d : Byte) (k j : Bool) : chr9 c k = chr9 d j ↔ c = d ∧ k = j := by
  constructor
  · intro h
    exact ⟨by rw [← chr9_value c k, h, chr9_value], by rw [← chr9_mark c k, h, chr9_mark]⟩
  · rintro ⟨rfl, rfl⟩; rfl

@[simp] theorem data36_word36 (d : Data) (k : Marks) : data36 (word36 d k) = d := by
  apply BitVec.eq_of_getLsbD_eq
  intro i hi
  rw [data36, BitVec.getLsbD_extractLsb', Nat.zero_add, word36_bit]
  simp [hi]

@[simp] theorem marks36_word36 (d : Data) (k : Marks) : marks36 (word36 d k) = k := by
  apply BitVec.eq_of_getLsbD_eq
  intro i hi
  rw [marks36, BitVec.getLsbD_extractLsb', word36_bit]
  simp [hi]

theorem word36_of_fields (b : BitVec 36) : word36 (data36 b) (marks36 b) = b := by
  apply BitVec.eq_of_getLsbD_eq
  intro i hi
  rw [word36_bit, data36, marks36, BitVec.getLsbD_extractLsb', BitVec.getLsbD_extractLsb']
  by_cases h : i < 32
  · simp [h]
  · have h1 : i - 32 < 4 := by omega
    have h2 : 32 + (i - 32) = i := by omega
    simp [h, h1, h2]

theorem lane_word4 (c0 c1 c2 c3 : Byte) :
    lane (word4 c0 c1 c2 c3) 0 = c0 ∧ lane (word4 c0 c1 c2 c3) 1 = c1 ∧
    lane (word4 c0 c1 c2 c3) 2 = c2 ∧ lane (word4 c0 c1 c2 c3) 3 = c3 := by
  refine ⟨?_, ?_, ?_, ?_⟩ <;>
  · apply BitVec.eq_of_getLsbD_eq
    intro i hi
    rw [lane, BitVec.getLsbD_extractLsb', word4_bit]
    simp only [hi, decide_true, Bool.true_and]
    split_ifs <;> first | (exfalso; omega) | (congr 1; omega)

@[simp] theorem lane_rep4 (c : Byte) : lane (rep4 c) 0 = c := (lane_word4 c c c c).1

@[simp] theorem seqBits_delay (mode : Bool) (d : Byte) :
    BitVec.extractLsb' 0 8 (seqChr (seqBits mode d) 3) = d := by
  apply BitVec.eq_of_getLsbD_eq
  intro i hi
  let ch (i : Nat) : BitVec 9 := chr9 (trigSeq mode d i).c (trigSeq mode d i).k
  have h0 : (seqBits mode d).getLsbD (27 + i) =
      (ch 5 ++ ch 4 ++ ch 3 ++ ch 2 ++ ch 1).getLsbD (27 + i - 9) := above_bit _ _ _ (by omega)
  have h1 : (ch 5 ++ ch 4 ++ ch 3 ++ ch 2 ++ ch 1).getLsbD (27 + i - 9) =
      (ch 5 ++ ch 4 ++ ch 3 ++ ch 2).getLsbD (27 + i - 9 - 9) := above_bit _ _ _ (by omega)
  have h2 : (ch 5 ++ ch 4 ++ ch 3 ++ ch 2).getLsbD (27 + i - 9 - 9) =
      (ch 5 ++ ch 4 ++ ch 3).getLsbD (27 + i - 9 - 9 - 9) := above_bit _ _ _ (by omega)
  have h3 : (ch 5 ++ ch 4 ++ ch 3).getLsbD (27 + i - 9 - 9 - 9) =
      (ch 3).getLsbD (27 + i - 9 - 9 - 9) := below_bit _ _ _ (by omega)
  have e : (seqBits mode d).getLsbD (27 + i) = (chr9 d false).getLsbD i := by
    rw [h0, h1, h2, h3, show 27 + i - 9 - 9 - 9 = i by omega]
    rfl
  rw [BitVec.getLsbD_extractLsb', seqChr, BitVec.getLsbD_extractLsb']
  have h9 : i < 9 := by omega
  simp only [hi, decide_true, Bool.true_and, Nat.zero_add, h9]
  rw [show 9 * 3 + i = 27 + i from rfl, e, chr9_bit]
  simp [hi]

theorem seqBits_mode (d e : Byte) : seqBits true d ≠ seqBits false e := by
  intro h
  have h6 : (chr9 trigIndic284 true).getLsbD 6 = (chr9 trigIndic282 true).getLsbD 6 :=
    ((below_bit _ _ 6 (by omega)).symm.trans (congrArg (fun b => b.getLsbD 6) h)).trans
      (below_bit _ _ 6 (by omega))
  exact absurd h6 (by decide)

end Sys2Proof.Machine
end

