-- ==== Sys2Proof/Laws/Memory.lean ====
section
/-!
SUPPORT. Laws/Memory.lean: reading after writing (rule R16), and the canonical form: every memory operation
keeps it, and both memories have it after reset.
-/
namespace Sys2Proof.Machine

@[simp] theorem memRead_nil (a : Nat) : memRead [] a = none := rfl

theorem memRead_memWrite_same (m : Memory) (a : Nat) (v : Data) :
    memRead (memWrite m a v) a = some v := by
  induction m with
  | nil => simp [memWrite, memRead]
  | cons e rest ih =>
    obtain ⟨b, w⟩ := e
    by_cases h1 : a < b
    · simp [memWrite, memRead, h1]
    · by_cases h2 : a = b
      · simp [memWrite, memRead, h2]
      · simp [memWrite, memRead, h1, h2, ih]

/-- No entry below the first index of a canonical memory. -/
theorem memRead_below (m : Memory) (a b : Nat) (v : Data) (hw : Memory.wf ((b, v) :: m) = true)
    (h : a < b) : memRead m a = none := by
  induction m generalizing b v with
  | nil => rfl
  | cons e rest ih =>
    obtain ⟨c, w⟩ := e
    simp only [Memory.wf, Bool.and_eq_true, decide_eq_true_eq] at hw
    have hac : a < c := Nat.lt_trans h hw.1
    simp only [memRead, Nat.ne_of_lt hac, if_false]
    exact ih c w hw.2 hac

theorem memRead_memWrite_other (m : Memory) (a b : Nat) (v : Data) (h : b ≠ a) :
    memRead (memWrite m a v) b = memRead m b := by
  induction m with
  | nil => simp [memWrite, memRead, h]
  | cons e rest ih =>
    obtain ⟨c, w⟩ := e
    by_cases h1 : a < c
    · simp [memWrite, memRead, h1, h]
    · by_cases h2 : a = c
      · subst h2; simp [memWrite, memRead, h]
      · by_cases h3 : b = c
        · simp [memWrite, memRead, h1, h2, h3]
        · simp [memWrite, memRead, h1, h2, h3, ih]

/-- The first index of a written memory is the old first index or the written one. -/
theorem memWrite_head (m : Memory) (a : Nat) (v : Data) (n : Nat) (hn : n < a)
    (h : ∀ e ∈ m.head?, n < e.1) : ∀ e ∈ (memWrite m a v).head?, n < e.1 := by
  cases m with
  | nil => simp [memWrite, hn]
  | cons e rest =>
    obtain ⟨b, w⟩ := e
    have hb : n < b := h (b, w) rfl
    unfold memWrite
    split
    · simp [hn]
    · split <;> simp [hn, hb]

theorem wf_cons (e : Nat × Data) (m : Memory) :
    Memory.wf (e :: m) = true ↔ (∀ x ∈ m.head?, e.1 < x.1) ∧ Memory.wf m = true := by
  cases m with
  | nil => simp [Memory.wf]
  | cons x rest => simp [Memory.wf]

theorem memWrite_wf (m : Memory) (a : Nat) (v : Data) (h : m.wf = true) : (memWrite m a v).wf = true := by
  induction m with
  | nil => rfl
  | cons e rest ih =>
    obtain ⟨b, w⟩ := e
    obtain ⟨hh, hw⟩ := (wf_cons _ _).1 h
    unfold memWrite
    split
    · rename_i hlt
      exact (wf_cons _ _).2 ⟨by simpa using hlt, h⟩
    · split
      · rename_i heq
        subst heq
        exact (wf_cons _ _).2 ⟨hh, hw⟩
      · rename_i h1 h2
        exact (wf_cons _ _).2 ⟨memWrite_head rest a v b (by omega) hh, ih hw⟩

/-- Every entry of a written memory is an old one or the written one. -/
theorem mem_memWrite (m : Memory) (a : Nat) (v : Data) (e : Nat × Data) (h : e ∈ memWrite m a v) :
    e ∈ m ∨ e = (a, v) := by
  induction m with
  | nil => simpa [memWrite] using h
  | cons x rest ih =>
    obtain ⟨b, w⟩ := x
    unfold memWrite at h
    split at h
    · simp only [List.mem_cons] at h ⊢; tauto
    · split at h
      · simp only [List.mem_cons] at h ⊢; tauto
      · simp only [List.mem_cons] at h ⊢
        rcases h with h | h
        · tauto
        · have := ih h; tauto

theorem bufNext_wf (c : Config) (buf : Memory) (we : Bool) (addr : Nat) (wdata : Data)
    (h : buf.wf = true) : (bufNext c buf we addr wdata).wf = true := by
  unfold bufNext; split
  · exact memWrite_wf _ _ _ h
  · exact h

theorem rsmMem_wf (c : Config) (b : Rsm) (w : Word) (h : b.mem.wf = true) : (rsmMem c b w).wf = true := by
  unfold rsmMem; split
  · exact memWrite_wf _ _ _ h
  · exact h

theorem reset_buf_wf : State.reset.wrt.buf.wf = true := rfl

theorem reset_slots_wf : State.reset.rsm.mem.wf = true := rfl

end Sys2Proof.Machine
end

