-- ==== Sys2Proof/Laws/PerInstr.lean ====
section
/-!
SUPPORT. Laws/PerInstr.lean: one lemma per instruction of the family RoundTrip: the decoder reads an
instruction's code, at the place it stands, as that instruction.
-/
namespace Sys2Proof.Laws.RoundTrip
open Sys2Proof

/-- The type codes of a valid configuration are apart (rule R10). -/
theorem valid_types (c : Config) (h : c.valid = true) :
    c.typeStream ≠ typeTest ∧ c.typeHeartbeat ≠ typeTest ∧ c.typeHeartbeat ≠ c.typeStream := by
  simp only [Config.valid, Bool.and_eq_true, decide_eq_true_eq] at h
  exact ⟨h.1.1.1.2, h.1.1.2, fun e => h.1.2 e.symm⟩

/-- Decoding the code of a well-formed instruction gives the instruction. -/
def Statement (i : Instr) : Prop :=
  ∀ c : Config, c.valid = true → wellFormed c i = true → Sys2Proof.decode c (placeOf i) (encode c i) = .ok i

theorem startWord : Statement .startWord := fun _ _ _ => rfl

theorem endWord : Statement .endWord := fun _ _ _ => rfl

theorem idleWord : Statement .idleWord := fun _ _ _ => rfl

theorem ioackWord : Statement .ioackWord := fun _ _ _ => rfl

theorem ackDataWord : Statement .ackDataWord := fun _ _ _ => rfl

theorem typeTestWord : Statement .typeTestWord := fun _ _ _ => rfl

theorem typeWord (t : Byte) : Statement (.typeWord t) := by
  intro c _ hw
  simp only [placeOf, encode, Sys2Proof.decode, Machine.data36_word36, Machine.lane_rep4, if_true, hw]

theorem patWord (n : BitVec 12) : Statement (.patWord n) := by
  intro c _ hw
  simp only [placeOf, encode, Sys2Proof.decode, hw, and_self, if_true]

theorem crcTrailerWord (trailer : Data) : Statement (.crcTrailerWord trailer) := by
  intro c _ _
  simp only [placeOf, encode, Sys2Proof.decode, Machine.marks36_word36, Machine.data36_word36, if_true]

theorem trigSeqNormal (d : Byte) : Statement (.trigSeqNormal d) := by
  intro c _ _
  simp only [placeOf, encode, Sys2Proof.decode, decodeSequence, Machine.seqBits_delay, if_true]

theorem trigSeqLinktrig (d : Byte) : Statement (.trigSeqLinktrig d) := by
  intro c _ _
  simp only [placeOf, encode, Sys2Proof.decode, decodeSequence, Machine.seqBits_delay, Machine.seqBits_mode,
    if_false, if_true]

theorem rxIdle (w : RawWord) : Statement (.rxIdle w) := by
  intro c _ hw
  have h : Machine.isIdleRaw w.data w.k = true := hw
  simp only [placeOf, encode, Sys2Proof.decode, Machine.marks36_word36, Machine.data36_word36, h, if_true]

theorem rxStart : Statement .rxStart := fun _ _ _ => rfl

theorem rxEnd : Statement .rxEnd := fun _ _ _ => rfl

theorem rxTrig282 : Statement .rxTrig282 := fun _ _ _ => rfl

theorem rxTrig284 : Statement .rxTrig284 := fun _ _ _ => rfl

theorem rxIoack : Statement .rxIoack := fun _ _ _ => rfl

theorem rxAckdata : Statement .rxAckdata := fun _ _ _ => rfl

theorem rxTypeTest : Statement .rxTypeTest := by
  intro c _ _
  simp only [placeOf, encode, Sys2Proof.decode, decodeType, Machine.chr9_value, Machine.chr9_mark]
  simp [Machine.typeOfChar]

theorem rxTypeStream : Statement .rxTypeStream := by
  intro c hc _
  have h : c.typeStream ≠ typeTest := (valid_types c hc).1
  simp only [placeOf, encode, Sys2Proof.decode, decodeType, Machine.chr9_value, Machine.chr9_mark]
  simp [Machine.typeOfChar, h]

theorem rxTypeHeartbeat : Statement .rxTypeHeartbeat := by
  intro c hc _
  have h : c.typeHeartbeat ≠ typeTest := (valid_types c hc).2.1
  have h2 : c.typeHeartbeat ≠ c.typeStream := (valid_types c hc).2.2
  simp only [placeOf, encode, Sys2Proof.decode, decodeType, Machine.chr9_value, Machine.chr9_mark]
  simp [Machine.typeOfChar, h, h2]

theorem rxTypeCommand03 : Statement .rxTypeCommand03 := by
  intro c _ hw
  have h : Machine.typeOfChar c 0x03#8 false = some .command := by simpa [wellFormed] using hw
  show decodeType c 0x003#9 = _
  unfold decodeType
  rw [show Machine.typeOfChar c (BitVec.extractLsb' 0 8 0x003#9) ((0x003#9).getLsbD 8) = _ from h]
  rfl

theorem rxTypeCommand06 : Statement .rxTypeCommand06 := by
  intro c _ hw
  have h : Machine.typeOfChar c 0x06#8 false = some .command := by simpa [wellFormed] using hw
  show decodeType c 0x006#9 = _
  unfold decodeType
  rw [show Machine.typeOfChar c (BitVec.extractLsb' 0 8 0x006#9) ((0x006#9).getLsbD 8) = _ from h]
  rfl

theorem decode (w : RawWord) : Statement (.decode w) := fun _ _ _ => rfl

theorem crcAppend : Statement .crcAppend := fun _ _ _ => rfl

theorem crcCheck (p : CrcPort) : Statement (.crcCheck p) := fun _ _ _ => rfl

theorem idleInsert : Statement .idleInsert := fun _ _ _ => rfl

theorem triggerRead : Statement .triggerRead := fun _ _ _ => rfl

theorem triggerAckRead : Statement .triggerAckRead := fun _ _ _ => rfl

theorem wordToChars : Statement .wordToChars := fun _ _ _ => rfl

theorem framePacket : Statement .framePacket := fun _ _ _ => rfl

theorem classifyPacket : Statement .classifyPacket := fun _ _ _ => rfl

theorem dropIdle : Statement .dropIdle := fun _ _ _ => rfl

theorem framingError : Statement .framingError := fun _ _ _ => rfl

theorem storeCommandPacket : Statement .storeCommandPacket := fun _ _ _ => rfl

theorem heartbeatParse : Statement .heartbeatParse := fun _ _ _ => rfl

theorem testCheck : Statement .testCheck := fun _ _ _ => rfl

theorem prioritySelect : Statement .prioritySelect := fun _ _ _ => rfl

theorem hostStartCmd : Statement .hostStartCmd := fun _ _ _ => rfl

theorem hostStartTest : Statement .hostStartTest := fun _ _ _ => rfl

theorem hostBufWrite (a : Nat) (v : Data) : Statement (.hostBufWrite a v) := fun _ _ _ => rfl

theorem hostLenWrite (n : Nat) : Statement (.hostLenWrite n) := fun _ _ _ => rfl

theorem hostRdWrite (n : Nat) : Statement (.hostRdWrite n) := fun _ _ _ => rfl

theorem hostAckErrors : Statement .hostAckErrors := fun _ _ _ => rfl

theorem hostSlotRead (slot word : Nat) : Statement (.hostSlotRead slot word) := fun _ _ _ => rfl

theorem hostTrigStrobe (d : Byte) (m : Bool) : Statement (.hostTrigStrobe d m) := fun _ _ _ => rfl

theorem hostTrigAckStrobe : Statement .hostTrigAckStrobe := fun _ _ _ => rfl

end Sys2Proof.Laws.RoundTrip
end

