-- ==== Sys2Proof/Laws/State.lean ====
section
/-!
SUPPORT. Laws/State.lean: one lemma per field per update of the state, true by rfl.
-/
namespace Sys2Proof.Machine

/-! ### withHost -/

@[simp] theorem withHost_cfg (s : State) (h : HostIn) : (withHost s h).cfg = s.cfg := rfl
@[simp] theorem withHost_dcd (s : State) (h : HostIn) : (withHost s h).dcd = s.dcd := rfl
@[simp] theorem withHost_trd (s : State) (h : HostIn) : (withHost s h).trd = s.trd := rfl
@[simp] theorem withHost_ard (s : State) (h : HostIn) : (withHost s h).ard = s.ard := rfl
@[simp] theorem withHost_cls (s : State) (h : HostIn) : (withHost s h).cls = s.cls := rfl
@[simp] theorem withHost_chkHb (s : State) (h : HostIn) : (withHost s h).chkHb = s.chkHb := rfl
@[simp] theorem withHost_chkCmd (s : State) (h : HostIn) : (withHost s h).chkCmd = s.chkCmd := rfl
@[simp] theorem withHost_hbr (s : State) (h : HostIn) : (withHost s h).hbr = s.hbr := rfl
@[simp] theorem withHost_tck (s : State) (h : HostIn) : (withHost s h).tck = s.tck := rfl
@[simp] theorem withHost_rsm (s : State) (h : HostIn) : (withHost s h).rsm = s.rsm := rfl
@[simp] theorem withHost_wrt (s : State) (h : HostIn) : (withHost s h).wrt = s.wrt := rfl
@[simp] theorem withHost_cin (s : State) (h : HostIn) : (withHost s h).cin = s.cin := rfl
@[simp] theorem withHost_frm (s : State) (h : HostIn) : (withHost s h).frm = s.frm := rfl
@[simp] theorem withHost_idl (s : State) (h : HostIn) : (withHost s h).idl = s.idl := rfl
@[simp] theorem withHost_ain (s : State) (h : HostIn) : (withHost s h).ain = s.ain := rfl
@[simp] theorem withHost_cnv (s : State) (h : HostIn) : (withHost s h).cnv = s.cnv := rfl
@[simp] theorem withHost_tin (s : State) (h : HostIn) : (withHost s h).tin = s.tin := rfl
@[simp] theorem withHost_inp (s : State) (h : HostIn) : (withHost s h).inp = { s.inp with host := h } := rfl
@[simp] theorem withHost_pending (s : State) (h : HostIn) : (withHost s h).pending = s.pending := rfl
@[simp] theorem withHost_out (s : State) (h : HostIn) : (withHost s h).out = s.out := rfl
@[simp] theorem withHost_ticks (s : State) (h : HostIn) : (withHost s h).ticks = s.ticks := rfl

/-! ### withRx -/

@[simp] theorem withRx_cfg (s : State) (w : RawWord) : (withRx s w).cfg = s.cfg := rfl
@[simp] theorem withRx_dcd (s : State) (w : RawWord) : (withRx s w).dcd = s.dcd := rfl
@[simp] theorem withRx_trd (s : State) (w : RawWord) : (withRx s w).trd = s.trd := rfl
@[simp] theorem withRx_ard (s : State) (w : RawWord) : (withRx s w).ard = s.ard := rfl
@[simp] theorem withRx_cls (s : State) (w : RawWord) : (withRx s w).cls = s.cls := rfl
@[simp] theorem withRx_chkHb (s : State) (w : RawWord) : (withRx s w).chkHb = s.chkHb := rfl
@[simp] theorem withRx_chkCmd (s : State) (w : RawWord) : (withRx s w).chkCmd = s.chkCmd := rfl
@[simp] theorem withRx_hbr (s : State) (w : RawWord) : (withRx s w).hbr = s.hbr := rfl
@[simp] theorem withRx_tck (s : State) (w : RawWord) : (withRx s w).tck = s.tck := rfl
@[simp] theorem withRx_rsm (s : State) (w : RawWord) : (withRx s w).rsm = s.rsm := rfl
@[simp] theorem withRx_wrt (s : State) (w : RawWord) : (withRx s w).wrt = s.wrt := rfl
@[simp] theorem withRx_cin (s : State) (w : RawWord) : (withRx s w).cin = s.cin := rfl
@[simp] theorem withRx_frm (s : State) (w : RawWord) : (withRx s w).frm = s.frm := rfl
@[simp] theorem withRx_idl (s : State) (w : RawWord) : (withRx s w).idl = s.idl := rfl
@[simp] theorem withRx_ain (s : State) (w : RawWord) : (withRx s w).ain = s.ain := rfl
@[simp] theorem withRx_cnv (s : State) (w : RawWord) : (withRx s w).cnv = s.cnv := rfl
@[simp] theorem withRx_tin (s : State) (w : RawWord) : (withRx s w).tin = s.tin := rfl
@[simp] theorem withRx_inp (s : State) (w : RawWord) : (withRx s w).inp = { s.inp with rxValid := true, rxWord := w } := rfl
@[simp] theorem withRx_pending (s : State) (w : RawWord) : (withRx s w).pending = s.pending := rfl
@[simp] theorem withRx_out (s : State) (w : RawWord) : (withRx s w).out = s.out := rfl
@[simp] theorem withRx_ticks (s : State) (w : RawWord) : (withRx s w).ticks = s.ticks := rfl

/-! ### endTick -/

@[simp] theorem endTick_cfg (s : State) (o : Outputs) : (endTick s o).cfg = s.cfg := rfl
@[simp] theorem endTick_dcd (s : State) (o : Outputs) : (endTick s o).dcd = s.dcd := rfl
@[simp] theorem endTick_trd (s : State) (o : Outputs) : (endTick s o).trd = s.trd := rfl
@[simp] theorem endTick_ard (s : State) (o : Outputs) : (endTick s o).ard = s.ard := rfl
@[simp] theorem endTick_cls (s : State) (o : Outputs) : (endTick s o).cls = s.cls := rfl
@[simp] theorem endTick_chkHb (s : State) (o : Outputs) : (endTick s o).chkHb = s.chkHb := rfl
@[simp] theorem endTick_chkCmd (s : State) (o : Outputs) : (endTick s o).chkCmd = s.chkCmd := rfl
@[simp] theorem endTick_hbr (s : State) (o : Outputs) : (endTick s o).hbr = s.hbr := rfl
@[simp] theorem endTick_tck (s : State) (o : Outputs) : (endTick s o).tck = s.tck := rfl
@[simp] theorem endTick_rsm (s : State) (o : Outputs) : (endTick s o).rsm = s.rsm := rfl
@[simp] theorem endTick_wrt (s : State) (o : Outputs) : (endTick s o).wrt = s.wrt := rfl
@[simp] theorem endTick_cin (s : State) (o : Outputs) : (endTick s o).cin = s.cin := rfl
@[simp] theorem endTick_frm (s : State) (o : Outputs) : (endTick s o).frm = s.frm := rfl
@[simp] theorem endTick_idl (s : State) (o : Outputs) : (endTick s o).idl = s.idl := rfl
@[simp] theorem endTick_ain (s : State) (o : Outputs) : (endTick s o).ain = s.ain := rfl
@[simp] theorem endTick_cnv (s : State) (o : Outputs) : (endTick s o).cnv = s.cnv := rfl
@[simp] theorem endTick_tin (s : State) (o : Outputs) : (endTick s o).tin = s.tin := rfl
@[simp] theorem endTick_inp (s : State) (o : Outputs) : (endTick s o).inp = nextInputs s := rfl
@[simp] theorem endTick_pending (s : State) (o : Outputs) : (endTick s o).pending = s.pending.tail := rfl
@[simp] theorem endTick_out (s : State) (o : Outputs) : (endTick s o).out = o := rfl
@[simp] theorem endTick_ticks (s : State) (o : Outputs) : (endTick s o).ticks = s.ticks + 1 := rfl

/-! ### resetBlocks -/

@[simp] theorem resetBlocks_cfg (s : State) : (resetBlocks s).cfg = s.cfg := rfl
@[simp] theorem resetBlocks_dcd (s : State) : (resetBlocks s).dcd = dcdReset := rfl
@[simp] theorem resetBlocks_trd (s : State) : (resetBlocks s).trd = trdReset := rfl
@[simp] theorem resetBlocks_ard (s : State) : (resetBlocks s).ard = ardReset := rfl
@[simp] theorem resetBlocks_cls (s : State) : (resetBlocks s).cls = clsReset := rfl
@[simp] theorem resetBlocks_chkHb (s : State) : (resetBlocks s).chkHb = chkReset := rfl
@[simp] theorem resetBlocks_chkCmd (s : State) : (resetBlocks s).chkCmd = chkReset := rfl
@[simp] theorem resetBlocks_hbr (s : State) : (resetBlocks s).hbr = hbrReset := rfl
@[simp] theorem resetBlocks_tck (s : State) : (resetBlocks s).tck = tckReset := rfl
@[simp] theorem resetBlocks_rsm (s : State) : (resetBlocks s).rsm = rsmReset s.cfg := rfl
@[simp] theorem resetBlocks_wrt (s : State) : (resetBlocks s).wrt = wrtReset := rfl
@[simp] theorem resetBlocks_cin (s : State) : (resetBlocks s).cin = cinReset := rfl
@[simp] theorem resetBlocks_frm (s : State) : (resetBlocks s).frm = FrmSt.idle := rfl
@[simp] theorem resetBlocks_idl (s : State) : (resetBlocks s).idl = idlReset := rfl
@[simp] theorem resetBlocks_ain (s : State) : (resetBlocks s).ain = AinSt.copy := rfl
@[simp] theorem resetBlocks_cnv (s : State) : (resetBlocks s).cnv = cnvReset := rfl
@[simp] theorem resetBlocks_tin (s : State) : (resetBlocks s).tin = tinReset := rfl
@[simp] theorem resetBlocks_inp (s : State) : (resetBlocks s).inp = s.inp := rfl
@[simp] theorem resetBlocks_pending (s : State) : (resetBlocks s).pending = s.pending := rfl
@[simp] theorem resetBlocks_out (s : State) : (resetBlocks s).out = s.out := rfl
@[simp] theorem resetBlocks_ticks (s : State) : (resetBlocks s).ticks = s.ticks := rfl

/-! ### runBlocks -/

@[simp] theorem runBlocks_cfg (s : State) : (runBlocks s).cfg = s.cfg := rfl
@[simp] theorem runBlocks_dcd (s : State) : (runBlocks s).dcd = dcdNext s.dcd s.inp.rxValid s.inp.rxWord (rdyTrd s) := rfl
@[simp] theorem runBlocks_trd (s : State) : (runBlocks s).trd = trdNext s.trd (rxDcd s) := rfl
@[simp] theorem runBlocks_ard (s : State) : (runBlocks s).ard = ardNext s.ard (rxTrd s) := rfl
@[simp] theorem runBlocks_cls (s : State) : (runBlocks s).cls = clsNext s.cfg s.cls (clsTaken s) := rfl
@[simp] theorem runBlocks_chkHb (s : State) : (runBlocks s).chkHb = chkNext s.chkHb (rxPort s .heartbeat) := rfl
@[simp] theorem runBlocks_chkCmd (s : State) : (runBlocks s).chkCmd = chkNext s.chkCmd (rxPort s .command) := rfl
@[simp] theorem runBlocks_hbr (s : State) : (runBlocks s).hbr = hbrNext s.hbr (rxHb s) (crcErrorHb s) := rfl
@[simp] theorem runBlocks_tck (s : State) : (runBlocks s).tck = tckNext s.cfg s.tck (rxPort s .test) := rfl
@[simp] theorem runBlocks_rsm (s : State) : (runBlocks s).rsm = rsmNext s.cfg s.rsm (rxCmd s) (crcErrorCmd s) s.inp.host := rfl
@[simp] theorem runBlocks_wrt (s : State) : (runBlocks s).wrt = wrtNext s.cfg s.wrt s.inp.host (rdyCin s) := rfl
@[simp] theorem runBlocks_cin (s : State) : (runBlocks s).cin = cinNext s.cin (txWrt s) (rdyFrm s) := rfl
@[simp] theorem runBlocks_frm (s : State) : (runBlocks s).frm = frmNext s.frm (txCin s) (rdyIdl s) := rfl
@[simp] theorem runBlocks_idl (s : State) : (runBlocks s).idl = idlNext s.idl (txFrm s) (rdyAin s) := rfl
@[simp] theorem runBlocks_ain (s : State) : (runBlocks s).ain = ainNext s.ain s.inp.host.trigAckStrobe (rdyCnv s) := rfl
@[simp] theorem runBlocks_cnv (s : State) : (runBlocks s).cnv = cnvNext s.cnv (txAin s) (rdyTin s) := rfl
@[simp] theorem runBlocks_tin (s : State) : (runBlocks s).tin = tinNext s.tin s.inp.host.trigStrobe s.inp.host.trigDelay s.inp.host.linktrigMode s.inp.txReady := rfl
@[simp] theorem runBlocks_inp (s : State) : (runBlocks s).inp = s.inp := rfl
@[simp] theorem runBlocks_pending (s : State) : (runBlocks s).pending = s.pending := rfl
@[simp] theorem runBlocks_out (s : State) : (runBlocks s).out = s.out := rfl
@[simp] theorem runBlocks_ticks (s : State) : (runBlocks s).ticks = s.ticks := rfl

end Sys2Proof.Machine
end

