-- ==== Sys2Proof/Laws/Tick.lean ====
section
/-!
SUPPORT. Laws/Tick.lean: what one tick does to each block, with and without reset (rules R14, R682, R750),
and what a row can answer.
-/
namespace Sys2Proof.Machine

/-! ### The model's own fields -/

theorem tick_cfg (s : State) : (tick s).cfg = s.cfg := by
  unfold tick; split <;> rfl

theorem tick_inp (s : State) : (tick s).inp = nextInputs s := by
  unfold tick; split <;> rfl

theorem tick_pending (s : State) : (tick s).pending = s.pending.tail := by
  unfold tick; split <;> rfl

theorem tick_out (s : State) : (tick s).out = outputs s := by
  unfold tick; split <;> rfl

theorem tick_ticks (s : State) : (tick s).ticks = s.ticks + 1 := by
  unfold tick; split <;> rfl

/-! ### A running tick, block by block -/

theorem tick_running (s : State) (h : s.inp.rst = false) :
    tick s = endTick (runBlocks s) (outputs s) := by simp [tick, h]

theorem tick_dcd (s : State) (h : s.inp.rst = false) :
    (tick s).dcd = dcdNext s.dcd s.inp.rxValid s.inp.rxWord (rdyTrd s) := by
  simp [tick, h]

theorem tick_trd (s : State) (h : s.inp.rst = false) :
    (tick s).trd = trdNext s.trd (rxDcd s) := by
  simp [tick, h]

theorem tick_ard (s : State) (h : s.inp.rst = false) :
    (tick s).ard = ardNext s.ard (rxTrd s) := by
  simp [tick, h]

theorem tick_cls (s : State) (h : s.inp.rst = false) :
    (tick s).cls = clsNext s.cfg s.cls (clsTaken s) := by
  simp [tick, h]

theorem tick_chkHb (s : State) (h : s.inp.rst = false) :
    (tick s).chkHb = chkNext s.chkHb (rxPort s .heartbeat) := by
  simp [tick, h]

theorem tick_chkCmd (s : State) (h : s.inp.rst = false) :
    (tick s).chkCmd = chkNext s.chkCmd (rxPort s .command) := by
  simp [tick, h]

theorem tick_hbr (s : State) (h : s.inp.rst = false) :
    (tick s).hbr = hbrNext s.hbr (rxHb s) (crcErrorHb s) := by
  simp [tick, h]

theorem tick_tck (s : State) (h : s.inp.rst = false) :
    (tick s).tck = tckNext s.cfg s.tck (rxPort s .test) := by
  simp [tick, h]

theorem tick_rsm (s : State) (h : s.inp.rst = false) :
    (tick s).rsm = rsmNext s.cfg s.rsm (rxCmd s) (crcErrorCmd s) s.inp.host := by
  simp [tick, h]

theorem tick_wrt (s : State) (h : s.inp.rst = false) :
    (tick s).wrt = wrtNext s.cfg s.wrt s.inp.host (rdyCin s) := by
  simp [tick, h]

theorem tick_cin (s : State) (h : s.inp.rst = false) :
    (tick s).cin = cinNext s.cin (txWrt s) (rdyFrm s) := by
  simp [tick, h]

theorem tick_frm (s : State) (h : s.inp.rst = false) :
    (tick s).frm = frmNext s.frm (txCin s) (rdyIdl s) := by
  simp [tick, h]

theorem tick_idl (s : State) (h : s.inp.rst = false) :
    (tick s).idl = idlNext s.idl (txFrm s) (rdyAin s) := by
  simp [tick, h]

theorem tick_ain (s : State) (h : s.inp.rst = false) :
    (tick s).ain = ainNext s.ain s.inp.host.trigAckStrobe (rdyCnv s) := by
  simp [tick, h]

theorem tick_cnv (s : State) (h : s.inp.rst = false) :
    (tick s).cnv = cnvNext s.cnv (txAin s) (rdyTin s) := by
  simp [tick, h]

theorem tick_tin (s : State) (h : s.inp.rst = false) :
    (tick s).tin = tinNext s.tin s.inp.host.trigStrobe s.inp.host.trigDelay s.inp.host.linktrigMode s.inp.txReady := by
  simp [tick, h]

/-! ### A reset tick -/

theorem tick_in_reset (s : State) (h : s.inp.rst = true) :
    tick s = endTick (resetBlocks s) (outputs s) := by simp [tick, h]

/-! ### What a row answers -/

theorem rowTick_takes (s : State) (h : s.cfg.valid = true) : rowTick true s = .next (tick s) := by
  simp [rowTick, h]

theorem rowTick_turned_away (s : State) (h : s.cfg.valid = true) : rowTick false s = .next s := by
  simp [rowTick, h]

theorem rowTick_refused (b : Bool) (s : State) (h : s.cfg.valid = false) :
    rowTick b s = .refused .badConfiguration := by
  simp [rowTick, h]

/-- All that a row can do: refuse a bad configuration, run the tick in which it takes place, or change
nothing. -/
theorem rowTick_cases (b : Bool) (s : State) :
    (s.cfg.valid = false ∧ rowTick b s = .refused .badConfiguration) ∨
    (s.cfg.valid = true ∧ b = true ∧ rowTick b s = .next (tick s)) ∨
    (s.cfg.valid = true ∧ b = false ∧ rowTick b s = .next s) := by
  cases hv : s.cfg.valid <;> cases b <;> simp [rowTick, hv]

end Sys2Proof.Machine
end

