-- ==== Sys2Proof/Laws/Rows.lean ====
section
/-!
SUPPORT. Laws/Rows.lean: what any row of the table can do, said once (log entry 4), which state a host
signal reaches, and the arithmetic of the wires.
-/
namespace Sys2Proof.Machine

/-- A row that takes place in a running core is its tick. -/
theorem rowTick_of_runs {b : Bool} {s : State} (h : runs s) (hb : b = true) : rowTick b s = .next (tick s) := by
  subst hb; exact rowTick_takes s h.1

/-- A row that is not driven is the tick in which it takes place. -/
theorem exec_undriven (i : Instr) (s : State) (h : driven i = false) : exec i s = rowTick (occurs i s) s := by
  cases i <;> first | rfl | (exact absurd h (by simp [driven]))

/-- A driven row is the tick with its signals on the pins. -/
theorem exec_driven (i : Instr) (s : State) (h : driven i = true) : exec i s = rowTick true (driveRow i s) := by
  cases i <;> first | rfl | (exact absurd h (by simp [driven]))

/-- No row changes the parameters. -/
theorem driveRow_cfg (i : Instr) (s : State) : (driveRow i s).cfg = s.cfg := by cases i <;> rfl

/-- A row that takes place finds its signals on the pins already. -/
theorem driveRow_of_occurs (i : Instr) (s : State) (h : occurs i s = true) : driveRow i s = s := by
  cases i <;> first
    | rfl
    | (simp only [occurs, beq_iff_eq] at h; simp only [driveRow, h]; rfl)
    | skip
  rename_i w
  simp only [occurs, offersWord, Bool.and_eq_true, beq_iff_eq] at h
  simp only [driveRow, withRx]
  have : ({ s.inp with rxValid := true, rxWord := w } : Inputs) = s.inp := by rw [← h.1, ← h.2]
  rw [this]

/-- All that a row which answers a next state can do. -/
theorem exec_next (i : Instr) (s t : State) (h : exec i s = .next t) : t = s ∨ t = tick (driveRow i s) := by
  cases hd : driven i
  · rw [exec_undriven i s hd] at h
    have e : driveRow i s = s := by cases i <;> first | rfl | (exact absurd hd Bool.noConfusion)
    rw [e]
    rcases rowTick_cases (occurs i s) s with ⟨_, q⟩ | ⟨_, _, q⟩ | ⟨_, _, q⟩ <;> rw [q] at h <;> cases h <;> simp
  · rw [exec_driven i s hd] at h
    rcases rowTick_cases true (driveRow i s) with ⟨_, q⟩ | ⟨_, _, q⟩ | ⟨_, q, _⟩
    · rw [q] at h; cases h
    · rw [q] at h; cases h; simp
    · cases q

/-- An invariant that the pins do not touch and the tick keeps is kept by every row and step. -/
theorem kept {P : State → Prop} (hd : ∀ i s, P s → P (driveRow i s)) (ht : ∀ s, P s → P (tick s)) (s t : State)
    (hp : P s) (h : step s = .next t ∨ ∃ i, exec i s = .next t) : P t := by
  have : ∃ i, exec i s = .next t := by
    rcases h with h | h
    · exact ⟨_, h⟩
    · exact h
  obtain ⟨i, h⟩ := this
  rcases exec_next i s t h with rfl | rfl
  · exact hp
  · exact ht _ (hd i s hp)

/-- A property of the tick in its two cases, reset and running. -/
theorem tick_blocks {P : State → Prop} (s : State) (hr : P (endTick (resetBlocks s) (outputs s))) (hn : P (endTick (runBlocks s) (outputs s))) : P (tick s) := by
  unfold tick; split
  · exact hr
  · exact hn

/-- Host signals do not reach the receive blocks but the reassembler. -/
theorem tick_withHost_receivers (s : State) (h : HostIn) : sameReceivers (tick (withHost s h)) (tick s) := by
  cases hr : s.inp.rst
  · have hr2 : (withHost s h).inp.rst = false := hr
    unfold sameReceivers
    simp only [tick_dcd _ hr, tick_trd _ hr, tick_ard _ hr, tick_cls _ hr, tick_chkHb _ hr,
      tick_chkCmd _ hr, tick_hbr _ hr, tick_tck _ hr, tick_dcd _ hr2, tick_trd _ hr2,
      tick_ard _ hr2, tick_cls _ hr2, tick_chkHb _ hr2, tick_chkCmd _ hr2, tick_hbr _ hr2, tick_tck _ hr2]
    exact ⟨rfl, rfl, rfl, rfl, rfl, rfl, rfl, rfl⟩
  · have hr2 : (withHost s h).inp.rst = true := hr
    rw [tick_in_reset s hr, tick_in_reset _ hr2]
    exact ⟨rfl, rfl, rfl, rfl, rfl, rfl, rfl, rfl⟩

/-- Host signals do not reach the framing blocks. -/
theorem tick_withHost_framers (s : State) (h : HostIn) : sameFramers (tick (withHost s h)) (tick s) := by
  cases hr : s.inp.rst
  · have hr2 : (withHost s h).inp.rst = false := hr
    unfold sameFramers
    simp only [tick_cin _ hr, tick_frm _ hr, tick_idl _ hr, tick_cnv _ hr, tick_cin _ hr2, tick_frm _ hr2,
      tick_idl _ hr2, tick_cnv _ hr2]
    exact ⟨rfl, rfl, rfl, rfl⟩
  · have hr2 : (withHost s h).inp.rst = true := hr
    rw [tick_in_reset s hr, tick_in_reset _ hr2]
    exact ⟨rfl, rfl, rfl, rfl⟩

/-- An index width holds every count up to its argument (rule R10). -/
theorem clog2_bound (n : Nat) : n ≤ 2 ^ Config.clog2 n := by
  unfold Config.clog2
  split
  · simp; omega
  · have := @Nat.lt_log2_self (n-1)
    omega

theorem lenBits_bound (c : Config) : c.bufWords < 2 ^ c.lenBits := clog2_bound (c.bufWords+1)

/-- The wire below a positive value. -/
theorem decAt_pos (w x : Nat) (h : 1 ≤ x) (hx : x < 2^w) : decAt w x = x - 1 := by
  unfold decAt
  rw [show x + 2^w - 1 = (x - 1) + 2^w by omega, Nat.add_mod_right, Nat.mod_eq_of_lt (by omega)]

theorem valid_sizes (c : Config) (h : c.valid = true) : 2 ≤ c.nSlots ∧ 1 ≤ c.slotWords ∧ 1 ≤ c.bufWords := by
  simp only [Config.valid, Bool.and_eq_true, decide_eq_true_eq] at h
  exact ⟨h.1.1.1.1.1.1.1, h.1.1.1.1.1.2, h.1.1.1.1.2⟩

theorem slot_bound {n sw wr wc : Nat} (h1 : wr < n) (h2 : wc < sw) : wr * sw + wc < n * sw := by
  calc wr * sw + wc < wr * sw + sw := by omega
    _ = (wr + 1) * sw := by ring
    _ ≤ n * sw := Nat.mul_le_mul_right _ h1

end Sys2Proof.Machine
end

