-- ==== Sys2Proof/Laws/Streams.lean ====
section
/-!
SUPPORT. Laws/Streams.lean: packets by their first and last word, and one tick of a fed block (rules R14,
R15, R500).
-/
namespace Sys2Proof.Machine

/-- A packet by its last word. -/
theorem asPacket_snoc (l : List (Data × Marks)) (x : Data × Marks) :
    asPacket (l ++ [x]) = l.map (fun w => ⟨w.1, w.2, false⟩) ++ [⟨x.1, x.2, true⟩] := by
  induction l with
  | nil => rfl
  | cons a l ih =>
    cases l with
    | nil => rfl
    | cons b l => simpa [asPacket] using ih

/-- A packet by its first word. -/
theorem asPacket_cons (a b : Data × Marks) (l : List (Data × Marks)) :
    asPacket (a :: b :: l) = ⟨a.1, a.2, false⟩ :: asPacket (b :: l) := rfl

theorem cinFeed_succ (n : Nat) (b : Cin) (q : List WWord) : cinFeed (n+1) b q =
  ((cinFeed n (cinNext b q.head? true) (if cinInReady b true then q.tail else q)).1,
   (cinFeed n (cinNext b q.head? true) (if cinInReady b true then q.tail else q)).2.1,
   (cinOut b q.head?).toList ++ (cinFeed n (cinNext b q.head? true) (if cinInReady b true then q.tail else q)).2.2) := rfl

theorem frmFeed_succ (n : Nat) (b : FrmSt) (q : List Word) : frmFeed (n+1) b q =
  ((frmFeed n (frmNext b q.head? true) (if frmInReady b true then q.tail else q)).1,
   (frmFeed n (frmNext b q.head? true) (if frmInReady b true then q.tail else q)).2.1,
   (frmOut b q.head?).toList ++ (frmFeed n (frmNext b q.head? true) (if frmInReady b true then q.tail else q)).2.2) := rfl

theorem idlFeed_succ (n : Nat) (b : Idl) (q : List Word) : idlFeed (n+1) b q =
  ((idlFeed n (idlNext b q.head? true) (if idlInReady b true then q.tail else q)).1,
   (idlFeed n (idlNext b q.head? true) (if idlInReady b true then q.tail else q)).2.1,
   (idlOut b q.head?).toList ++ (idlFeed n (idlNext b q.head? true) (if idlInReady b true then q.tail else q)).2.2) := rfl

theorem cnvFeed_succ (n : Nat) (b : Cnv) (q : List Word) : cnvFeed (n+1) b q =
  ((cnvFeed n (cnvNext b q.head? true) (if cnvInReady b true then q.tail else q)).1,
   (cnvFeed n (cnvNext b q.head? true) (if cnvInReady b true then q.tail else q)).2.1,
   (cnvOut b).toList ++ (cnvFeed n (cnvNext b q.head? true) (if cnvInReady b true then q.tail else q)).2.2) := rfl

end Sys2Proof.Machine
end

