-- ==== Sys2Proof/Tests/Slice0.lean ====
section
/-!
SUPPORT. Tests/Slice0.lean: ill-formed terms refused, one hand-written code for every row that has bits, a few
single steps with values from 95_test_vectors.md or a rule, and for every statement with hypotheses a
concrete state that meets them.
-/
namespace Sys2Proof.Tests
open Sys2Proof.Machine

/-! ### Small states -/

/-- What a row leaves, tested. -/
def after (i : Instr) (s : State) (f : State → Bool) : Bool :=
  match exec i s with
  | .next t => f t
  | .fault _ => false
  | .refused _ => false

def s0 : State := State.reset
/-- The idle inserter in COPY, so that the framer's consumer is ready. -/
def flowing : State := { s0 with idl := ⟨.copy, 9999#14⟩ }
def header : State := { flowing with frm := .insertHeader }
def footer : State := { flowing with frm := .insertFooter }
def copying : State := { flowing with frm := .copy }
/-- A command packet of `n` words at word `j`. -/
def command (j n : Nat) : State :=
  { copying with
    wrt := ⟨.cmd, j, n, 0#12, n, [(0, 0x03030303#32), (1, 0x12345678#32)]⟩
    cin := ⟨if j = 0 then .first else .body, crcSeed⟩ }
def testing (n : BitVec 12) : State :=
  { copying with wrt := ⟨.testData, 0, 0, n, 0, []⟩, cin := ⟨.bypass, crcSeed⟩ }
def trailer : State := { copying with cin := ⟨.trailer, 0x36BBF8F2#32⟩ }
def sending (i : BitVec 3) (m : Bool) : State := { s0 with tin := ⟨.send, i, 0x2A#8, m⟩ }
def acking (st : AinSt) : State := { s0 with ain := st }
/-- The classifier in a state, with a word held on a port. -/
def classifying (st : ClsSt) (p : Port) (hv : Bool) (d : Data) : State := { s0 with cls := ⟨st, p, hv, d, 0#4⟩ }
def startIn (s : State) : State := holdChar s 0xFB#8 true
def stopIn (s : State) : State := holdChar s 0xFD#8 true
def wordIn (d : Data) (s : State) : State := holdWord s ⟨d, 0#4⟩
/-- The end of a heartbeat packet whose register was 0x36BBF8F2 before its trailer (E2). -/
def heartbeatEnd (t : Data) : State :=
  stopIn { classifying .payload .heartbeat true t with
    chkHb := ⟨0x36BBF8F2#32, true, 0x08070605#32, 0#4⟩
    hbr := ⟨2#2, 0x44332211#32, 0x01000000#32, 0#32, 0#32, 0#64⟩ }
/-- The end of a command packet, the read cursor at `rd`. -/
def commandEnd (rd : Nat) : State :=
  stopIn { classifying .payload .command true 0x4F1FDD6C#32 with
    chkCmd := ⟨0x36BBF8F2#32, true, 3#32, 0#4⟩
    rsm := ⟨0, rd, 2, [(0, 1#32), (1, 2#32)], [0, 0, 0, 0], false⟩ }
def testEnd (n : BitVec 11) : State :=
  stopIn { classifying .payload .test true 0xFFFEFDFC#32 with tck := ⟨n, false, 7, 3⟩ }
def trigWord (st : TrdSt) (c : Byte) : State :=
  holdChar { s0 with trd := ⟨st, 0x11#8, 0#8, false⟩ } c true
def ackWord (st : ArdSt) (c : Byte) (k : Bool) : State := holdChar { s0 with ard := ⟨st, false⟩ } c k
def resetting : State := { s0 with inp := { s0.inp with rst := true } }
/-- A word in both memories and the sticky flag set, in a reset tick. -/
def resettingFull : State :=
  { resetting with
    rsm := { s0.rsm with mem := [(0, 5#32)], bufferError := true }
    wrt := { s0.wrt with buf := [(0, 7#32)], len := 4 } }
/-- The classifier holding a word for a stream consumer that is not ready. -/
def stalled : State :=
  { startIn (classifying .payload .stream true 0xA#32) with inp := { Inputs.quiet with streamReady := false } }
def badCfg : State := { s0 with cfg := { Config.examples with nSlots := 3 } }

/-! ### WellFormed refuses -/

theorem test_wf_typeWord : wellFormed Config.examples (.typeWord 0x77#8) = false := by decide
theorem test_wf_patWord : wellFormed Config.examples (.patWord 6#12) = false := by decide
theorem test_wf_rxIdle : wellFormed Config.examples (.rxIdle ⟨0xB53C3CBC#32, 0x6#4⟩) = false := by decide
theorem test_wf_command03 :
    wellFormed { Config.examples with typeCommand := [0x06#8] } .rxTypeCommand03 = false := by decide
theorem test_wf_command06 :
    wellFormed { Config.examples with typeCommand := [0x03#8] } .rxTypeCommand06 = false := by decide
theorem test_wf_bufWrite : wellFormed Config.examples (.hostBufWrite 16 0#32) = false := by decide
theorem test_wf_lenWrite : wellFormed Config.examples (.hostLenWrite 32) = false := by decide
theorem test_wf_rdWrite : wellFormed Config.examples (.hostRdWrite 4) = false := by decide
theorem test_wf_slotRead_slot : wellFormed Config.examples (.hostSlotRead 4 0) = false := by decide
theorem test_wf_slotRead_word : wellFormed Config.examples (.hostSlotRead 0 16) = false := by decide
theorem test_cfg_slots : { Config.examples with nSlots := 3 }.valid = false := by decide
theorem test_cfg_oneSlot : { Config.examples with nSlots := 1 }.valid = false := by decide
theorem test_cfg_slotWords : { Config.examples with slotWords := 0 }.valid = false := by decide
theorem test_cfg_bufWords : { Config.examples with bufWords := 0 }.valid = false := by decide
theorem test_cfg_stream : { Config.examples with typeStream := 0x04#8 }.valid = false := by decide
theorem test_cfg_heartbeat : { Config.examples with typeHeartbeat := 0x01#8 }.valid = false := by decide
theorem test_cfg_command : { Config.examples with typeCommand := [0x09#8] }.valid = false := by decide

/-! ### Codes written out from the spec's encodings -/

-- R308 to R311, R313, R314: markers in bits 35:32, lane 3 first below them
theorem test_dec_startWord : decodeTableWord 40 0xFFBFBFBFB = some .startWord := by decide
theorem test_dec_endWord : decodeTableWord 40 0xFFDFDFDFD = some .endWord := by decide
theorem test_dec_idleWord : decodeTableWord 40 0x7B53C3CBC = some .idleWord := by decide
theorem test_dec_ioackWord : decodeTableWord 40 0xFDCDCDCDC = some .ioackWord := by decide
theorem test_dec_ackDataWord : decodeTableWord 40 0x001010101 = some .ackDataWord := by decide
theorem test_dec_typeTestWord : decodeTableWord 40 0x004040404 = some .typeTestWord := by decide
theorem test_dec_typeWord : decodeTableWord 40 0x009090909 = some (.typeWord 0x09#8) := by decide
theorem test_dec_patWord : decodeTableWord 40 0x00B0A0908 = some (.patWord 8#12) := by decide
theorem test_dec_patLast :
    decode Config.examples (.patternOut 0xFFC#12) (.word36 0x0FFFEFDFC#36) = .ok (.patWord 0xFFC#12) := rfl
theorem test_dec_crcTrailer : decodeTableWord 40 0x04F1FDD6C = some (.crcTrailerWord 0x4F1FDD6C#32) := by decide
theorem test_dec_rxIdle : decodeTableWord 40 0x1000000BC = some (.rxIdle ⟨0xBC#32, 0x1#4⟩) := by decide
-- R312, six characters of nine bits, the first lowest: 1_5C, 1_9C, 1_9C, 0_2A, 0_2A, 0_2A
theorem test_dec_trigSeqNormal :
    decodeTableWord 56 0b000101010000101010000101010110011100110011100101011100
      = some (.trigSeqNormal 0x2A#8) := by decide
theorem test_dec_trigSeqLinktrig :
    decodeTableWord 56 0b000101010000101010000101010101011100101011100110011100
      = some (.trigSeqLinktrig 0x2A#8) := by decide
-- R320 to R325: the marker in bit 8
theorem test_dec_rxStart : decodeTableWord 16 0x1FB = some .rxStart := by decide
theorem test_dec_rxEnd : decodeTableWord 16 0x1FD = some .rxEnd := by decide
theorem test_dec_rxTrig282 : decodeTableWord 16 0x15C = some .rxTrig282 := by decide
theorem test_dec_rxTrig284 : decodeTableWord 16 0x19C = some .rxTrig284 := by decide
theorem test_dec_rxIoack : decodeTableWord 16 0x1DC = some .rxIoack := by decide
theorem test_dec_rxAckdata : decode Config.examples .ackDataIn (.dchar9 0x001#9) = .ok .rxAckdata := rfl
theorem test_dec_rxTypeTest : decodeTableWord 16 0x004 = some .rxTypeTest := by decide
theorem test_dec_rxTypeStream : decodeTableWord 16 0x001 = some .rxTypeStream := by decide
theorem test_dec_rxTypeHeartbeat : decodeTableWord 16 0x009 = some .rxTypeHeartbeat := by decide
theorem test_dec_rxTypeCommand03 : decodeTableWord 16 0x003 = some .rxTypeCommand03 := by decide
theorem test_dec_rxTypeCommand06 : decodeTableWord 16 0x006 = some .rxTypeCommand06 := by decide
-- R306: K28.3 has no meaning in this core; R325: 0x77 is no type
theorem test_dec_reserved :
    decode Config.examples .classifierIn (.dchar9 0x17C#9) = .error .reservedCharacter := rfl
theorem test_dec_unknownType :
    decode Config.examples .typeIn (.dchar9 0x077#9) = .error .unknownType := rfl
-- R303: a host operation is its signals; R333: a block operation its name
theorem test_dec_host :
    decodeHost { HostIn.quiet with lenWe := true, lenWdata := 5 } = .hostLenWrite 5
      ∧ decodeHost { HostIn.quiet with trigStrobe := true, trigDelay := 0x2A#8 } = .hostTrigStrobe 0x2A#8 false := by
  decide
theorem test_dec_block :
    decode Config.examples .block (.operation .framingError) = .ok .framingError := rfl

/-! ### Single values and steps; expected values from 95_test_vectors.md -/

theorem test_vote_E1 : voteChar 0x5A5E5A5A#32 = 0x5A#8 ∧ voteMark 0#4 = false := by decide
theorem test_vote_tie : voteChar 0xFFFF0000#32 = 0x00#8 ∧ voteMark 0x3#4 = false := by decide
theorem test_crc_V1 : crcSeq [1#32, 2#32, 3#32] = 0x36BBF8F2#32 ∧ rev32 0x36BBF8F2#32 = 0x4F1FDD6C#32 := by decide +kernel
theorem test_crc_V9 : crcStep 0x36BBF8F2#32 0x4F1FDD6D#32 = 0xA6E63D1D#32 := by decide
-- R502, R504
theorem test_startWord : after .startWord header (fun t => t.frm == .copy && t.cnv.data == 0xFBFBFBFB#32) := by decide
theorem test_endWord : after .endWord footer (fun t => t.frm == .idle && t.idl.st == .writeIdle) := by decide
-- R441 from reset: the idle word enters the converter in the first tick (V-IDL-1)
theorem test_idleWord : after .idleWord s0 (fun t => t.idl.st == .copy && t.cnv.data == 0xB53C3CBC#32) := by decide
-- R466, V-TRIG-1b: the second character is 5C/K in link-trigger mode
theorem test_trigSeq :
    after (.trigSeqLinktrig 0x2A#8) (sending 1#3 true) (fun t => t.out.txOut == some ⟨0x5C#8, true⟩) := by decide
-- R607: the last pattern word
theorem test_patLast : after (.patWord 0xFFC#12) (testing 0xFFC#12) (fun t => t.wrt.st == .idle) := by decide
-- E2: the trailer of [1, 2, 3]
theorem test_trailer :
    after (.crcTrailerWord 0x4F1FDD6C#32) trailer
      (fun t => t.cnv.data == 0x4F1FDD6C#32 && t.frm == .insertFooter) := by decide +kernel
-- E1: the corrected character is published by the second stage
theorem test_decode :
    after (.decode ⟨0#32, 0#4⟩)
      { s0 with dcd := dcdNext dcdReset true ⟨0x5A5E5A5A#32, 0#4⟩ true }
      (fun t => t.dcd.s2Dchar == 0x5A#8 && t.dcd.s2Data == 0x5A5E5A5A#32) := by decide
-- R520, R681: the word leaving on the stream port is `stream_out`
theorem test_streamOut : (tick (stopIn (classifying .payload .stream true 0xA#32))).out.streamOut =
    some ⟨0xA#32, 0#4, true⟩ := by decide
-- E2, E5: a good and a bad trailer
theorem test_heartbeat_good :
    after .heartbeatParse (heartbeatEnd 0x4F1FDD6C#32)
      (fun t => t.hbr.hostId == 0x11223344#32 && t.hbr.timestamp == 0x0000000105060708#64
        && !t.out.crcErrorHb) := by decide +kernel
theorem test_heartbeat_bad :
    after .heartbeatParse (heartbeatEnd 0x4F1FDD6D#32)
      (fun t => t.hbr.hostId == 0#32 && t.out.crcErrorHb) := by decide +kernel
-- R642, R644
theorem test_store_publishes :
    after .storeCommandPacket (commandEnd 0)
      (fun t => t.rsm.wr == 1 && t.rsm.slotLen == [3, 0, 0, 0] && memRead t.rsm.mem 2 == some 3#32) := by decide +kernel
theorem test_store_overflow :
    after .storeCommandPacket (commandEnd 1)
      (fun t => t.rsm.wr == 0 && t.rsm.bufferError && t.out.bufferOverflow) := by decide +kernel
-- R665: the last word of a good packet, and of a short one
theorem test_testCheck_good :
    after .testCheck (testEnd 1023#11) (fun t => t.tck.pktCnt == 8 && t.tck.errCnt == 3) := by decide
theorem test_testCheck_short :
    after .testCheck (testEnd 1022#11) (fun t => t.tck.errCnt == 4 && t.out.testError) := by decide
-- R530
theorem test_framingError :
    after .framingError (stopIn s0) (fun t => t.out.decodeError && t.cls.st == .scan) := by decide
-- R472, V-TRIG-2
theorem test_triggerRead :
    after .triggerRead (trigWord .readLinktrig 0x02#8)
      (fun t => t.trd.pulse && t.trd.linktrig == 0x02#8 && t.trd.delay == 0x11#8) := by decide
-- V-ACK-2: the data byte with its marker set gives no pulse
theorem test_triggerAckRead :
    after .triggerAckRead (ackWord .readAck 0x01#8 true) (fun t => !t.ard.pulse && t.ard.st == .copy) := by decide
-- R603, R601, R647, R648
theorem test_start_zero : after .hostStartCmd s0 (fun t => t.wrt.st == .idle) := by decide
theorem test_start_clamps :
    after .hostStartCmd { s0 with wrt := { s0.wrt with len := 31 } } (fun t => t.wrt.curLen == 16) := by decide
theorem test_bufWrite :
    after (.hostBufWrite 1 5#32) (command 0 2) (fun t => memRead t.wrt.buf 1 == some 5#32) := by decide
theorem test_ackErrors :
    after .hostAckErrors { s0 with rsm := { s0.rsm with bufferError := true } } (fun t => !t.rsm.bufferError) := by
  decide
-- R750, R124: the length and the flag are reset, and no word written before has a defined value
theorem test_reset_memories : (tick resettingFull).wrt.len = 0 ∧ (tick resettingFull).rsm.bufferError = false ∧
    memRead (tick resettingFull).wrt.buf 0 = none ∧ memRead (tick resettingFull).rsm.mem 0 = none := by decide
-- R601: an address of BUF_WORDS or more writes nothing
theorem test_bufWrite_outside :
    after (.hostBufWrite 12 5#32) { command 0 2 with cfg := { Config.examples with bufWords := 12 } }
      (fun t => t.wrt.buf == (command 0 2).wrt.buf) := by decide
-- R329: an unknown type sends the classifier back to SCAN
theorem test_unknown_type :
    after .framingError (wordIn 0x77777777#32 (classifying .type .stream false 0#32))
      (fun t => t.cls.st == .scan && t.out.decodeError) := by decide
theorem test_bad_configuration : exec .idleWord badCfg = .refused .badConfiguration := rfl
theorem test_turned_away : after .startWord s0 (fun t => t.ticks == 0) := by decide

/-! ### States that meet the hypotheses of the statements -/

theorem wit_runs : runs s0 := ⟨by decide, rfl⟩
theorem wit_MarkerWords_header : runs header ∧ header.frm = .insertHeader ∧ rdyIdl header = true :=
  ⟨⟨by decide, rfl⟩, rfl, by decide⟩
theorem wit_MarkerWords_footer : runs footer ∧ footer.frm = .insertFooter ∧ rdyIdl footer = true :=
  ⟨⟨by decide, rfl⟩, rfl, by decide⟩
theorem wit_InsertedWords_idle : runs s0 ∧ s0.idl.st = .writeIdle ∧ rdyAin s0 = true :=
  ⟨⟨by decide, rfl⟩, rfl, by decide⟩
theorem wit_InsertedWords_ackK :
    runs (acking .ackK) ∧ (acking .ackK).ain = .ackK ∧ rdyCnv (acking .ackK) = true :=
  ⟨⟨by decide, rfl⟩, rfl, by decide⟩
theorem wit_InsertedWords_ackData :
    runs (acking .ackData) ∧ (acking .ackData).ain = .ackData ∧ rdyCnv (acking .ackData) = true :=
  ⟨⟨by decide, rfl⟩, rfl, by decide⟩
theorem wit_TypeWords_test : let s := { copying with wrt := { s0.wrt with st := .testType } }
    runs s ∧ s.wrt.st = .testType := ⟨⟨by decide, rfl⟩, rfl⟩
theorem wit_TypeWords_first : runs (command 0 2) ∧ (command 0 2).wrt.st = .cmd ∧ (command 0 2).wrt.idx = 0 ∧
    1 ≤ (command 0 2).wrt.curLen ∧ (command 0 2).wrt.curLen ≤ (command 0 2).cfg.bufWords ∧
    memRead (command 0 2).wrt.buf 0 = some (0x03#8 ++ 0x03#8 ++ 0x03#8 ++ 0x03#8) :=
  ⟨⟨by decide, rfl⟩, rfl, rfl, by decide, by decide, by decide⟩
theorem wit_TypeWords_only : runs (command 0 1) ∧ (command 0 1).wrt.curLen = 1 ∧ rdyCin (command 0 1) = true ∧
    memRead (command 0 1).wrt.buf 0 = some (0x03#8 ++ 0x03#8 ++ 0x03#8 ++ 0x03#8) :=
  ⟨⟨by decide, rfl⟩, rfl, by decide, by decide⟩
theorem wit_TypeWords_last : runs (command 1 2) ∧ (command 1 2).wrt.st = .cmd ∧
    (command 1 2).wrt.idx = (command 1 2).wrt.curLen - 1 ∧ rdyCin (command 1 2) = true :=
  ⟨⟨by decide, rfl⟩, rfl, rfl, by decide⟩
theorem wit_TypeWords_longest : runs (command 0 16) ∧ (command 0 16).wrt.idx < (command 0 16).wrt.curLen ∧
    (command 0 16).wrt.curLen ≤ (command 0 16).cfg.bufWords := ⟨⟨by decide, rfl⟩, by decide, by decide⟩
theorem wit_PatternWord_first : runs (testing 0#12) ∧ (testing 0#12).wrt.st = .testData ∧
    rdyCin (testing 0#12) = true ∧ (testing 0#12).wrt.n ≠ 0xFFC#12 :=
  ⟨⟨by decide, rfl⟩, rfl, by decide, by decide⟩
theorem wit_PatternWord_last : runs (testing 0xFFC#12) ∧ (testing 0xFFC#12).wrt.st = .testData ∧
    rdyCin (testing 0xFFC#12) = true := ⟨⟨by decide, rfl⟩, rfl, by decide⟩
theorem wit_TrailerWord : runs trailer ∧ trailer.cin.st = .trailer ∧ rdyFrm trailer = true :=
  ⟨⟨by decide, rfl⟩, rfl, by decide⟩
theorem wit_TriggerCharacter_first : runs (sending 0#3 false) ∧ (sending 0#3 false).tin.st = .send ∧
    (sending 0#3 false).tin.i.toNat ≤ 5 ∧ (sending 0#3 false).inp.txReady = true :=
  ⟨⟨by decide, rfl⟩, rfl, by decide, rfl⟩
theorem wit_TriggerCharacter_last : runs (sending 5#3 true) ∧ (sending 5#3 true).tin.st = .send ∧
    (sending 5#3 true).tin.i.toNat ≤ 5 ∧ (sending 5#3 true).tin.i = 5#3 :=
  ⟨⟨by decide, rfl⟩, rfl, by decide, rfl⟩
theorem wit_IdleWordsRemoved : let s := holdWord s0 ⟨0xB53C3CBC#32, 0x7#4⟩
    runs s ∧ rxArd s = some ⟨0xB53C3CBC#32, 0x7#4, 0x3C#8, true⟩ ∧
      BitVec.extractLsb' 0 8 (0xB53C3CBC#32) = 0xBC#8 := ⟨⟨by decide, rfl⟩, by decide, by decide⟩
theorem wit_PacketMarkers_start (st : ClsSt) : let s := startIn (classifying st .stream true 0xA#32)
    runs s ∧ rxArd s = some ⟨0xFBFBFBFB#32, 0xF#4, 0xFB#8, true⟩ ∧ rdyCls s = true := by
  cases st <;> exact ⟨⟨by decide, rfl⟩, by decide, by decide⟩
theorem wit_PacketMarkers_stop (st : ClsSt) : let s := stopIn (classifying st .stream true 0xA#32)
    runs s ∧ rxArd s = some ⟨0xFDFDFDFD#32, 0xF#4, 0xFD#8, true⟩ ∧ rdyCls s = true ∧
      isIdle ⟨0xFDFDFDFD#32, 0xF#4, 0xFD#8, true⟩ = false := by
  cases st <;> exact ⟨⟨by decide, rfl⟩, by decide, by decide, by decide⟩
theorem wit_TypeWordSelects : ∀ t ∈ [0x04#8, 0x01#8, 0x09#8, 0x03#8, 0x06#8],
    let s := holdChar (classifying .type .stream false 0#32) t false
    runs s ∧ s.cls.st = .type ∧
      ∃ w, rxArd s = some w ∧ isIdle w = false ∧ w.dcharK = false ∧ w.dchar = t := by
  intro t h
  simp only [List.mem_cons, List.not_mem_nil, or_false] at h
  rcases h with rfl | rfl | rfl | rfl | rfl <;>
    exact ⟨⟨by decide, rfl⟩, rfl, _, rfl, by decide, by decide, by decide⟩
theorem wit_Decode_ready : runs s0 ∧ rdyTrd s0 = true ∧ s0.inp.rxValid = false :=
  ⟨⟨by decide, rfl⟩, by decide, rfl⟩
theorem wit_Decode_stalled :
    runs stalled ∧ rdyTrd stalled = false := ⟨⟨by decide, rfl⟩, by decide⟩
theorem wit_DecodeLatency : let w : RawWord := ⟨0x5A5E5A5A#32, 0#4⟩
    let t := tick (withRx s0 w)
    runs s0 ∧ rdyTrd s0 = true ∧ exec (.decode w) s0 = .next t ∧ t.inp.rst = false ∧ rdyTrd t = true ∧
      step t = .next (tick t) := ⟨⟨by decide, rfl⟩, by decide, rfl, rfl, by decide, rfl⟩
theorem wit_TriggerRead_indicator : runs (trigWord .copy 0x5C#8) ∧ (trigWord .copy 0x5C#8).trd.st = .copy ∧
    rxDcd (trigWord .copy 0x5C#8) = some ⟨0x5C5C5C5C#32, 0xF#4, 0x5C#8, true⟩ :=
  ⟨⟨by decide, rfl⟩, rfl, by decide⟩
theorem wit_TriggerRead_indicator284 : runs (trigWord .copy 0x9C#8) ∧
    rxDcd (trigWord .copy 0x9C#8) = some ⟨0x9C9C9C9C#32, 0xF#4, 0x9C#8, true⟩ := ⟨⟨by decide, rfl⟩, by decide⟩
theorem wit_TriggerRead_delay : runs (trigWord .readDelay 0xFB#8) ∧
    (trigWord .readDelay 0xFB#8).trd.st = .readDelay ∧ (rxDcd (trigWord .readDelay 0xFB#8)).isSome = true :=
  ⟨⟨by decide, rfl⟩, rfl, by decide⟩
theorem wit_TriggerRead_linktrig : runs (trigWord .readLinktrig 0x02#8) ∧
    (trigWord .readLinktrig 0x02#8).trd.st = .readLinktrig ∧
    (rxDcd (trigWord .readLinktrig 0x02#8)).isSome = true := ⟨⟨by decide, rfl⟩, rfl, by decide⟩
theorem wit_TriggerRead_transparent : let s := trigWord .copy 0xFB#8
    runs s ∧ s.trd.st = .copy ∧ rxDcd s = some ⟨0xFBFBFBFB#32, 0xF#4, 0xFB#8, true⟩ ∧
      rxTrd s = rxDcd s := ⟨⟨by decide, rfl⟩, rfl, by decide, by decide⟩
theorem wit_TriggerRead_pulse : let s := { s0 with trd := ⟨.copy, 0x11#8, 0x02#8, true⟩ }
    runs s ∧ rxDcd s = none ∧ s.trd.pulse = true := ⟨⟨by decide, rfl⟩, by decide, rfl⟩
theorem wit_TriggerAckRead_transparent : let s := ackWord .copy 0x01#8 false
    runs s ∧ s.ard.st = .copy ∧ rxTrd s = some ⟨0x01010101#32, 0#4, 0x01#8, false⟩ ∧
      rxArd s = rxTrd s := ⟨⟨by decide, rfl⟩, rfl, by decide, by decide⟩
theorem wit_TriggerAckRead_pulse : let s := { s0 with ard := ⟨.copy, true⟩ }
    runs s ∧ rxTrd s = none ∧ s.ard.pulse = true := ⟨⟨by decide, rfl⟩, by decide, rfl⟩
theorem wit_TriggerAckRead_marker : runs (ackWord .copy 0xDC#8 true) ∧
    rxTrd (ackWord .copy 0xDC#8 true) = some ⟨0xDCDCDCDC#32, 0xF#4, 0xDC#8, true⟩ := ⟨⟨by decide, rfl⟩, by decide⟩
theorem wit_TriggerAckRead_data : runs (ackWord .readAck 0x01#8 false) ∧
    (ackWord .readAck 0x01#8 false).ard.st = .readAck ∧
    rxTrd (ackWord .readAck 0x01#8 false) = some ⟨0x01010101#32, 0#4, 0x01#8, false⟩ :=
  ⟨⟨by decide, rfl⟩, rfl, by decide⟩
theorem wit_Classify_stalled : runs stalled ∧ rdyCls stalled = false ∧ stalled.trd.st = .copy ∧
    stalled.ard.st = .copy ∧ rxDcd stalled = some ⟨0xFBFBFBFB#32, 0xF#4, 0xFB#8, true⟩ :=
  ⟨⟨by decide, rfl⟩, by decide, rfl, rfl, by decide⟩
theorem wit_Classify_none : runs s0 ∧ rxArd s0 = none ∧ rdyCls s0 = true := ⟨⟨by decide, rfl⟩, by decide, by decide⟩
theorem wit_Classify_streamOut : let s := stopIn (classifying .payload .stream true 0xA#32)
    s.cfg.valid = true ∧ rxPort s .stream = some ⟨0xA#32, 0#4, true⟩ := ⟨by decide, by decide⟩
theorem wit_Classify_ready : runs s0 ∧ s0.inp.streamReady = true := ⟨⟨by decide, rfl⟩, rfl⟩
theorem wit_Classify_scan : let w : DWord := ⟨5#32, 0#4, 0#8, false⟩
    runs (wordIn 5#32 s0) ∧ rxArd (wordIn 5#32 s0) = some w ∧ isIdle w = false ∧
    rdyCls (wordIn 5#32 s0) = true ∧ framingBad Config.examples (wordIn 5#32 s0).cls w = false :=
  ⟨⟨by decide, rfl⟩, by decide, by decide, by decide, by decide⟩
theorem wit_Classify_type : let s := wordIn 0x01010101#32 (classifying .type .stream false 0#32)
    let w : DWord := ⟨0x01010101#32, 0#4, 1#8, false⟩
    runs s ∧ rxArd s = some w ∧ isIdle w = false ∧ rdyCls s = true ∧ framingBad s.cfg s.cls w = false :=
  ⟨⟨by decide, rfl⟩, by decide, by decide, by decide, by decide⟩
theorem wit_Classify_payload : let s := wordIn 5#32 (classifying .payload .stream true 0xA#32)
    let w : DWord := ⟨5#32, 0#4, 0#8, false⟩
    runs s ∧ rxArd s = some w ∧ isIdle w = false ∧ rdyCls s = true ∧ framingBad s.cfg s.cls w = false :=
  ⟨⟨by decide, rfl⟩, by decide, by decide, by decide, by decide⟩
theorem wit_FramingError (st : ClsSt) : ∃ s, runs s ∧ s.cls.st = st ∧ decodeError s = true := by
  cases st
  · exact ⟨stopIn s0, ⟨by decide, rfl⟩, rfl, by decide⟩
  · exact ⟨startIn (classifying .type .stream false 0#32), ⟨by decide, rfl⟩, rfl, by decide⟩
  · exact ⟨startIn (classifying .payload .stream true 5#32), ⟨by decide, rfl⟩, rfl, by decide⟩
theorem wit_FramingError_unknown : let s := wordIn 0x77777777#32 (classifying .type .stream false 0#32)
    let w : DWord := ⟨0x77777777#32, 0#4, 0x77#8, false⟩
    runs s ∧ decodeError s = true ∧ rxArd s = some w ∧ isStart w = false ∧ isEnd w = false ∧
      typeOf s.cfg w = none := ⟨⟨by decide, rfl⟩, by decide, by decide, by decide, by decide, by decide⟩
theorem wit_CrcCheck_heartbeat_last : let s := heartbeatEnd 0x4F1FDD6C#32
    runs s ∧ chkInput s .heartbeat = some ⟨0x4F1FDD6C#32, 0#4, true⟩ := ⟨⟨by decide, rfl⟩, by decide⟩
theorem wit_CrcCheck_none (p : CrcPort) : runs s0 ∧ chkInput s0 p = none := by
  cases p <;> exact ⟨⟨by decide, rfl⟩, by decide⟩
theorem wit_CrcCheck_command_inside : let s := wordIn 5#32 (classifying .payload .command true 0xA#32)
    runs s ∧ chkInput s .command = some ⟨0xA#32, 0#4, false⟩ := ⟨⟨by decide, rfl⟩, by decide⟩
theorem wit_StorePacket_free : runs (commandEnd 0) ∧ rxCmd (commandEnd 0) = some ⟨3#32, 0#4, true⟩ ∧
    (commandEnd 0).rsm.wcount ≤ (commandEnd 0).cfg.slotWords ∧
    (commandEnd 0).rsm.wr < (commandEnd 0).rsm.slotLen.length ∧ crcErrorCmd (commandEnd 0) = false :=
  ⟨⟨by decide, rfl⟩, by decide, by decide, by decide, by decide⟩
theorem wit_StorePacket_full : runs (commandEnd 1) ∧ rxCmd (commandEnd 1) = some ⟨3#32, 0#4, true⟩ ∧
    (commandEnd 1).rsm.wr < (commandEnd 1).rsm.slotLen.length := ⟨⟨by decide, rfl⟩, by decide, by decide⟩
theorem wit_StorePacket_excess :
    let s := { commandEnd 0 with rsm := { (commandEnd 0).rsm with wcount := 16 } }
    runs s ∧ (rxCmd s).isSome = true ∧ s.rsm.wcount ≤ s.cfg.slotWords := ⟨⟨by decide, rfl⟩, by decide, by decide⟩
theorem wit_StorePacket_none : let s := { s0 with rsm := { s0.rsm with bufferError := true } }
    runs s ∧ rxCmd s = none := ⟨⟨by decide, rfl⟩, by decide⟩
theorem wit_Heartbeat : let s := heartbeatEnd 0x4F1FDD6C#32
    runs s ∧ rxHb s = some ⟨0x08070605#32, 0#4, true⟩ ∧ 2 ≤ s.hbr.cnt.toNat ∧ crcErrorHb s = false :=
  ⟨⟨by decide, rfl⟩, by decide, by decide, by decide⟩
theorem wit_TestCheck_last : runs (testEnd 1023#11) ∧
    rxPort (testEnd 1023#11) .test = some ⟨0xFFFEFDFC#32, 0#4, true⟩ := ⟨⟨by decide, rfl⟩, by decide⟩
theorem wit_TestCheck_none : let s := { s0 with tck := ⟨5#11, true, 7, 3⟩ }
    runs s ∧ rxPort s .test = none := ⟨⟨by decide, rfl⟩, by decide⟩
theorem wit_TestCheck_inside : let s := wordIn 5#32 (classifying .payload .test true 0x03020100#32)
    runs s ∧ rxPort s .test = some ⟨0x03020100#32, 0#4, false⟩ := ⟨⟨by decide, rfl⟩, by decide⟩
theorem wit_CrcAppend_none : runs s0 ∧ txWrt s0 = none ∧ s0.cin.st ≠ .trailer :=
  ⟨⟨by decide, rfl⟩, by decide, by decide⟩
theorem wit_CrcAppend_first : runs (command 0 2) ∧ (txWrt (command 0 2)).isSome = true ∧
    (command 0 2).cin.st = .first ∧ rdyFrm (command 0 2) = true := ⟨⟨by decide, rfl⟩, by decide, by decide, by decide⟩
theorem wit_CrcAppend_body : runs (command 1 2) ∧
    txWrt (command 1 2) = some ⟨0x12345678#32, 0#4, true, true⟩ ∧ (command 1 2).cin.st = .body :=
  ⟨⟨by decide, rfl⟩, by decide, by decide⟩
theorem wit_CrcAppend_bypass : runs (testing 4#12) ∧ (txWrt (testing 4#12)).isSome = true ∧
    (testing 4#12).cin.st = .bypass := ⟨⟨by decide, rfl⟩, by decide, rfl⟩
theorem wit_CrcAppend_stalled : let s := { command 0 2 with frm := .insertHeader }
    runs s ∧ (txWrt s).isSome = true ∧ rdyFrm s = false := ⟨⟨by decide, rfl⟩, by decide, by decide⟩
theorem wit_IdleInsert_copy : runs flowing ∧ flowing.idl.st = .copy ∧ rdyAin flowing = true :=
  ⟨⟨by decide, rfl⟩, rfl, by decide⟩
theorem wit_IdleInsert_zero : let s := { command 0 2 with idl := ⟨.copy, 0#14⟩ }
    runs s ∧ s.idl.st = .copy ∧ rdyAin s = true ∧ (txFrm s).isSome = true ∧ s.idl.cnt = 0#14 :=
  ⟨⟨by decide, rfl⟩, rfl, by decide, by decide, rfl⟩
theorem wit_WordToChars_empty : runs flowing ∧ flowing.cnv.full = false ∧ txAin flowing = none :=
  ⟨⟨by decide, rfl⟩, rfl, by decide⟩
theorem wit_WordToChars_last : let s := { s0 with cnv := ⟨true, 0x4F1FDD6C#32, 0#4, 3#2⟩ }
    runs s ∧ s.cnv.full = true ∧ rdyCnv s = true ∧ (txAin s).isSome = true :=
  ⟨⟨by decide, rfl⟩, rfl, by decide, by decide⟩
theorem wit_FramePacket_idle : runs s0 ∧ s0.frm = .idle ∧ txCin s0 = none := ⟨⟨by decide, rfl⟩, rfl, by decide⟩
theorem wit_FramePacket_noticed : let s := { command 0 2 with frm := .idle }
    runs s ∧ s.frm = .idle ∧ (txCin s).isSome = true := ⟨⟨by decide, rfl⟩, rfl, by decide⟩
theorem wit_HostStart_length : let s := { s0 with wrt := { s0.wrt with len := 31 } }
    runs s ∧ s.wrt.st = .idle ∧ s.wrt.len ≠ 0 := ⟨⟨by decide, rfl⟩, rfl, by decide⟩
theorem wit_HostStart_none : runs s0 ∧ s0.wrt.st = .idle ∧ s0.wrt.len = 0 := ⟨⟨by decide, rfl⟩, rfl, rfl⟩
theorem wit_HostStart_quiet : let s := { s0 with wrt := { s0.wrt with len := 4 } }
    runs s ∧ s.wrt.st = .idle ∧ s.inp.host.startTest = false ∧
      ¬ (s.inp.host.startCmd = true ∧ s.wrt.len ≠ 0) := ⟨⟨by decide, rfl⟩, rfl, rfl, by decide⟩
theorem wit_HostStart_both : let s := { s0 with
      wrt := { s0.wrt with len := 1 }
      inp := { Inputs.quiet with host := pinStartCmd HostIn.quiet } }
    runs s ∧ s.wrt.st = .idle ∧ s.inp.host.startCmd = true ∧ s.wrt.len ≠ 0 :=
  ⟨⟨by decide, rfl⟩, rfl, rfl, by decide⟩
theorem wit_HostWriter : runs s0 ∧ 15 < s0.cfg.bufWords ∧ 31 < 2 ^ s0.cfg.lenBits :=
  ⟨⟨by decide, rfl⟩, by decide, by decide⟩
theorem wit_HostWriter_atBound : let c := { Config.examples with bufWords := 12 }
    runs { s0 with cfg := c } ∧ c.bufWords ≤ 12 ∧ wellFormed c (.hostBufWrite 12 5#32) = true :=
  ⟨⟨by decide, rfl⟩, by decide, by decide⟩
theorem wit_HostStrobes_quiet : let s := { s0 with tin := ⟨.copy, 0#3, 0x2A#8, true⟩ }
    runs s ∧ s.tin.st = .copy ∧ s.inp.host.trigStrobe = false ∧ s.ain = .copy ∧
      s.inp.host.trigAckStrobe = false := ⟨⟨by decide, rfl⟩, rfl, rfl, rfl, rfl⟩
theorem wit_HostSlotRead : runs (commandEnd 0) ∧ 0 < (commandEnd 0).cfg.nSlots ∧
    1 < (commandEnd 0).cfg.slotWords ∧ memRead (commandEnd 0).rsm.mem (0 * 16 + 1) = some 2#32 :=
  ⟨⟨by decide, rfl⟩, by decide, by decide, by decide⟩
theorem wit_PlacedWord : s0.cfg = Config.examples ∧ decodeTableWord 16 0x1FB = some .rxStart := ⟨rfl, by decide⟩
theorem wit_PlacedWord_idle : s0.cfg = Config.examples ∧ decodeTableWord 40 0x1000000BC = some (.rxIdle ⟨0xBC#32, 0x1#4⟩) ∧
    voteMark 0x1#4 = false := ⟨rfl, by decide, by decide⟩
theorem wit_DecodeInverts : Config.examples.valid = true ∧ wellFormed Config.examples (.patWord 0xFFC#12) = true :=
  ⟨by decide, by decide⟩
theorem wit_DecodedBits : Config.examples.valid = true ∧
    decode Config.examples .classifierIn (.dchar9 0x1FD#9) = .ok .rxEnd := ⟨by decide, rfl⟩
theorem wit_Configurations : s0.cfg.valid = true ∧ badCfg.cfg.valid = false := ⟨by decide, by decide⟩
theorem wit_Rows : driven .hostAckErrors = true ∧ driven .idleWord = false ∧ occurs .idleWord s0 = true ∧
    occurs .startWord s0 = false := ⟨rfl, rfl, by decide, by decide⟩
theorem wit_ResetTick : resetting.cfg.valid = true ∧ resetting.inp.rst = true := ⟨by decide, rfl⟩
theorem wit_LegalMemory : LegalMemory s0 := by constructor <;> decide
theorem wit_LegalRanges : LegalRanges s0 := by constructor <;> decide
theorem wit_LegalVotes : LegalVotes s0 := by constructor <;> decide
theorem wit_ReceiveAligned : ReceiveAligned s0 := by constructor <;> decide
theorem wit_TransmitAligned : TransmitAligned s0 := by constructor <;> decide
theorem wit_StepKeeps : (LegalMemory s0 ∧ LegalRanges s0 ∧ LegalVotes s0 ∧ ReceiveAligned s0 ∧ TransmitAligned s0) ∧
    step s0 = .next (tick s0) ∧ exec .idleWord s0 = .next (tick s0) :=
  ⟨⟨wit_LegalMemory, wit_LegalRanges, wit_LegalVotes, wit_ReceiveAligned, wit_TransmitAligned⟩, rfl, rfl⟩
theorem wit_UnwrittenWords : s0.inp.rst = false ∧ exec .hostAckErrors s0 = .next (tick (driveRow .hostAckErrors s0)) :=
  ⟨rfl, rfl⟩
theorem wit_Directions_receive :
    let s := { s0 with inp := { s0.inp with txReady := false, host := pinStartTest HostIn.quiet } }
    step s0 = .next (tick s0) ∧ step s = .next (tick s) ∧ s0.cfg = s.cfg ∧ s0.inp.rst = s.inp.rst ∧
      sameReceivers s0 s ∧ s0.rsm = s.rsm ∧ s0.inp.rxValid = s.inp.rxValid ∧ s0.inp.rxWord = s.inp.rxWord ∧
      s0.inp.streamReady = s.inp.streamReady ∧ sameReceivePins s0.inp.host s.inp.host :=
  ⟨rfl, rfl, rfl, rfl, ⟨rfl, rfl, rfl, rfl, rfl, rfl, rfl, rfl⟩, rfl, rfl, rfl, rfl, ⟨rfl, rfl, rfl⟩⟩
theorem wit_Directions_transmit :
    let s := withRx { s0 with inp := { s0.inp with host := pinSlotRead 1 2 (pinAckErrors HostIn.quiet) } } ⟨7#32, 0#4⟩
    step s0 = .next (tick s0) ∧ step s = .next (tick s) ∧ s0.cfg = s.cfg ∧ s0.inp.rst = s.inp.rst ∧
      sameTransmit s0 s ∧ s0.ticks = s.ticks ∧ s0.inp.txReady = s.inp.txReady ∧
      sameTransmitPins s0.inp.host s.inp.host :=
  ⟨rfl, rfl, rfl, rfl, ⟨⟨rfl, rfl, rfl, rfl⟩, rfl, rfl, rfl⟩, rfl, rfl,
    ⟨rfl, rfl, rfl, rfl, rfl, rfl, rfl, rfl, rfl, rfl, rfl⟩⟩
theorem wit_Vote : ∀ j, j < 8 → ∀ a b, a < 4 → b < 4 →
    (lane 0x5A5E5A5A#32 a).getLsbD j ≠ (0x5A#8).getLsbD j →
      (lane 0x5A5E5A5A#32 b).getLsbD j ≠ (0x5A#8).getLsbD j → a = b := by
  have h : ∀ (j : Fin 8) (a b : Fin 4), (lane 0x5A5E5A5A#32 a).getLsbD j ≠ (0x5A#8).getLsbD j →
      (lane 0x5A5E5A5A#32 b).getLsbD j ≠ (0x5A#8).getLsbD j → a.val = b.val := by decide
  exact fun j hj a b ha hb => h ⟨j, hj⟩ ⟨a, ha⟩ ⟨b, hb⟩
theorem wit_OneFlippedBit : 31 < 32 ∧ 0 < [1#32, 2#32].length := by decide
theorem wit_CrcChecker : chkReset.hv = false ∧ chkReset.crc = crcSeed := ⟨rfl, rfl⟩
theorem wit_IdlePeriod : (List.replicate 10000 (⟨5#32, 0#4, false⟩ : Word)).length = 10000 ∧
    ∀ v ∈ List.replicate 10000 (⟨5#32, 0#4, false⟩ : Word), v.eop = false :=
  ⟨List.length_replicate, fun v h => by rw [(List.mem_replicate.1 h).2]⟩
theorem wit_Classifier : let idle : DWord := ⟨0xB53C3CBC#32, 0x7#4, 0x3C#8, true⟩
    let start : DWord := ⟨0xFBFBFBFB#32, 0xF#4, 0xFB#8, true⟩
    let ty : DWord := ⟨0x09090909#32, 0#4, 0x09#8, false⟩
    let v : DWord := ⟨7#32, 0#4, 0#8, false⟩
    let stop : DWord := ⟨0xFDFDFDFD#32, 0xF#4, 0xFD#8, true⟩
    clsReset.st = .scan ∧ [idle, start, ty, idle, v, stop].filter (fun w => !isIdle w) = [start, ty, v, stop] ∧
      isStart start = true ∧ isStart ty = false ∧ isEnd ty = false ∧
      typeOf Config.examples ty = some .heartbeat ∧ isEnd stop = true ∧ isStart v = false ∧ isEnd v = false := by
  decide
theorem wit_Writer : 1 ≤ Config.examples.bufWords ∧ wrtReset.st = .idle ∧
    ({ wrtReset with len := 3 } : Wrt).len ≠ 0 := by decide
theorem wit_HeartbeatPacket : hbrReset.cnt = 0#2 ∧ [(1#32, 0#4), (2#32, 0#4), (3#32, 0#4)] ≠ ([] : List (Data × Marks)) := by
  decide
theorem wit_ReassemblerPacket : s0.rsm.wcount = 0 ∧ s0.rsm.wr < s0.rsm.slotLen.length ∧
    1 ≤ Config.examples.slotWords ∧ (s0.rsm.wr + 1) % Config.examples.nSlots ≠ s0.rsm.rd := by decide
theorem wit_ReassemblerFull : let b := { s0.rsm with rd := 1 }
    b.wr < b.slotLen.length ∧ (b.wr + 1) % Config.examples.nSlots = b.rd := by decide
theorem wit_TestPacket : tckReset.wcnt = 0#11 ∧ tckReset.bad = false := ⟨rfl, rfl⟩

end Sys2Proof.Tests
end

/-!
The range invariant (rules R103 to R117, R200, R206): each block keeps its own ranges, and so does the core.
-/
namespace Sys2Proof.Machine

/-! ### Memories inside their bounds (rules R200, R206) -/

/-- A write inside a bound keeps every entry inside it. -/
theorem memWrite_inside {m : Memory} {a n : Nat} (v : Data) (hm : ∀ e ∈ m, e.1 < n) (ha : a < n) :
    ∀ e ∈ memWrite m a v, e.1 < n := by
  intro e he
  rcases mem_memWrite m a v e he with h | rfl
  · exact hm e h
  · exact ha

theorem bufNext_inside {c : Config} {buf : Memory} (we : Bool) (addr : Nat) (wdata : Data)
    (hm : ∀ e ∈ buf, e.1 < c.bufWords) : ∀ e ∈ bufNext c buf we addr wdata, e.1 < c.bufWords := by
  unfold bufNext
  split
  next h => exact memWrite_inside wdata hm (by simp_all)
  next => exact hm

theorem rsmMem_inside {c : Config} {b : Rsm} (w : Word) (hwr : b.wr < c.nSlots)
    (hm : ∀ e ∈ b.mem, e.1 < c.nSlots * c.slotWords) :
    ∀ e ∈ rsmMem c b w, e.1 < c.nSlots * c.slotWords := by
  unfold rsmMem
  split
  next h => exact memWrite_inside w.data hm (slot_bound hwr h)
  next => exact hm

/-! ### The reassembler's fields after a tick (rules R641 to R648) -/

section Reassembler
variable (c : Config) (b : Rsm) (w : Word) (inp : Option Word) (e : Bool) (h : HostIn)

@[simp] theorem rsmTake_none : rsmTake c b none e = b := rfl

@[simp] theorem rsmTake_mem : (rsmTake c b (some w) e).mem = rsmMem c b w := rfl

@[simp] theorem rsmTake_wcount :
    (rsmTake c b (some w) e).wcount = if w.eop then 0 else rsmStored c b := rfl

@[simp] theorem rsmTake_slotLen : (rsmTake c b (some w) e).slotLen =
    if w.eop && !e then b.slotLen.set b.wr (rsmStored c b) else b.slotLen := rfl

@[simp] theorem rsmTake_wr : (rsmTake c b (some w) e).wr =
    if (w.eop && !e) && !ringFull c b then (b.wr + 1) % c.nSlots else b.wr := rfl

@[simp] theorem rsmNext_mem : (rsmNext c b inp e h).mem = (rsmTake c b inp e).mem := rfl

@[simp] theorem rsmNext_wcount : (rsmNext c b inp e h).wcount = (rsmTake c b inp e).wcount := rfl

@[simp] theorem rsmNext_slotLen : (rsmNext c b inp e h).slotLen = (rsmTake c b inp e).slotLen := rfl

@[simp] theorem rsmNext_wr : (rsmNext c b inp e h).wr = (rsmTake c b inp e).wr := rfl

@[simp] theorem rsmNext_rd :
    (rsmNext c b inp e h).rd = if h.rdWe then h.rdWdata % c.nSlots else b.rd := rfl

theorem rsmStored_le : rsmStored c b ≤ c.slotWords := by
  unfold rsmStored; split <;> omega

end Reassembler

/-- The ranges of rule R110, with the slot memory in its form and bounds (rules R200, R206). -/
structure ReassemblerInRange (c : Config) (b : Rsm) : Prop where
  wr : b.wr < c.nSlots
  rd : b.rd < c.nSlots
  wcount : b.wcount ≤ c.slotWords
  slotCount : b.slotLen.length = c.nSlots
  slotLens : ∀ l ∈ b.slotLen, l ≤ c.slotWords
  wf : b.mem.wf = true
  inside : ∀ e ∈ b.mem, e.1 < c.nSlots * c.slotWords

theorem rsmReset_inRange {c : Config} (hc : c.valid = true) : ReassemblerInRange c (rsmReset c) := by
  obtain ⟨hn, _, _⟩ := valid_sizes c hc
  constructor <;> simp [rsmReset, Memory.wf] <;> omega

theorem rsmTake_inRange {c : Config} {b : Rsm} (hb : ReassemblerInRange c b) (inp : Option Word)
    (e : Bool) : ReassemblerInRange c (rsmTake c b inp e) := by
  cases inp with
  | none => exact hb
  | some w =>
    have hn : 0 < c.nSlots := Nat.zero_lt_of_lt hb.wr
    have hstored := rsmStored_le c b
    constructor
    case wr => rw [rsmTake_wr]; split <;> [exact Nat.mod_lt _ hn; exact hb.wr]
    case rd => exact hb.rd
    case wcount => rw [rsmTake_wcount]; split <;> omega
    case slotCount => rw [rsmTake_slotLen]; split <;> simp [hb.slotCount]
    case slotLens =>
      rw [rsmTake_slotLen]
      split
      · intro l hl
        rcases List.mem_or_eq_of_mem_set hl with h | rfl
        · exact hb.slotLens l h
        · exact hstored
      · exact hb.slotLens
    case wf => exact rsmMem_wf c b w hb.wf
    case inside => exact rsmMem_inside w hb.wr hb.inside

theorem rsmNext_inRange {c : Config} {b : Rsm} (hb : ReassemblerInRange c b) (inp : Option Word)
    (e : Bool) (h : HostIn) : ReassemblerInRange c (rsmNext c b inp e h) := by
  have ht := rsmTake_inRange hb inp e
  refine ⟨ht.wr, ?_, ht.wcount, ht.slotCount, ht.slotLens, ht.wf, ht.inside⟩
  rw [rsmNext_rd]
  split
  · exact Nat.mod_lt _ (Nat.zero_lt_of_lt hb.wr)
  · exact hb.rd

/-! ### The writer's fields after a tick (rules R601 to R607) -/

/-- The ranges of rule R111. -/
structure WriterInRange (c : Config) (b : Wrt) : Prop where
  len : b.len < 2 ^ c.lenBits
  curLen : b.curLen ≤ c.bufWords
  idxInPacket : b.st = .cmd → b.idx < b.curLen
  idxOutside : b.st ≠ .cmd → b.idx = 0
  pattern : b.n.toNat % 4 = 0
  wf : b.buf.wf = true
  inside : ∀ e ∈ b.buf, e.1 < c.bufWords

theorem wrtReset_inRange (c : Config) : WriterInRange c wrtReset := by
  constructor <;> simp [wrtReset, Memory.wf]

/-- The next pattern counter is a multiple of 4 too (rule R607). -/
theorem pattern_add_four {n : BitVec 12} (hn : n.toNat % 4 = 0) : (n + 4#12).toNat % 4 = 0 := by
  rw [BitVec.toNat_add, BitVec.toNat_ofNat]; omega

/-- A word that is not the last of its packet has a next one (rule R605). -/
theorem incAt_idx_lt {c : Config} {b : Wrt} (hlen : b.curLen ≤ c.bufWords) (hidx : b.idx < b.curLen)
    (hlast : wrtAtLast c b = false) : incAt c.lenBits b.idx < b.curLen := by
  have hwidth := lenBits_bound c
  have hne : b.idx ≠ b.curLen - 1 := by
    rw [← decAt_pos c.lenBits b.curLen (by omega) (by omega)]
    simpa [wrtAtLast] using hlast
  rw [incAt, Nat.mod_eq_of_lt (by omega)]
  omega

theorem wrtStart_inRange {c : Config} {b : Wrt} (hc : 1 ≤ c.bufWords) (hb : WriterInRange c b)
    (hst : b.st = .idle) (startCmd startTest : Bool) :
    WriterInRange c (wrtStart c b startCmd startTest) := by
  have hidx : b.idx = 0 := hb.idxOutside (by simp [hst])
  unfold wrtStart
  split
  next h =>
    have hpos : b.len ≠ 0 := by simp_all
    exact ⟨hb.len, by simp, fun _ => by simp; omega, by simp, hb.pattern, hb.wf, hb.inside⟩
  next =>
    split
    · exact ⟨hb.len, hb.curLen, by simp, fun _ => hidx, rfl, hb.wf, hb.inside⟩
    · exact hb

theorem wrtRun_inRange {c : Config} {b : Wrt} (hc : 1 ≤ c.bufWords) (hb : WriterInRange c b)
    (startCmd startTest outReady : Bool) :
    WriterInRange c (wrtRun c b startCmd startTest outReady) := by
  unfold wrtRun
  split
  next hst => exact wrtStart_inRange hc hb hst startCmd startTest
  next hst =>
    split
    · exact ⟨hb.len, hb.curLen, by simp, by simp, hb.pattern, hb.wf, hb.inside⟩
    next hlast =>
      have hnext := incAt_idx_lt hb.curLen (hb.idxInPacket hst) (by simpa using hlast)
      exact ⟨hb.len, hb.curLen, fun _ => hnext, fun h => absurd hst h, hb.pattern, hb.wf, hb.inside⟩
  next hst =>
    exact ⟨hb.len, hb.curLen, by simp, fun _ => hb.idxOutside (by simp [hst]), rfl, hb.wf, hb.inside⟩
  next hst =>
    have hidx : b.idx = 0 := hb.idxOutside (by simp [hst])
    split
    · exact ⟨hb.len, hb.curLen, by simp, fun _ => hidx, rfl, hb.wf, hb.inside⟩
    · exact ⟨hb.len, hb.curLen, by simp [hst], fun _ => hidx, pattern_add_four hb.pattern, hb.wf,
        hb.inside⟩
  next => exact hb

@[simp] theorem wrtNext_buf (c : Config) (b : Wrt) (h : HostIn) (r : Bool) :
    (wrtNext c b h r).buf = bufNext c b.buf h.bufWe h.bufAddr h.bufWdata := rfl

@[simp] theorem wrtNext_len (c : Config) (b : Wrt) (h : HostIn) (r : Bool) :
    (wrtNext c b h r).len = if h.lenWe then h.lenWdata % 2 ^ c.lenBits else b.len := rfl

theorem wrtNext_inRange {c : Config} {b : Wrt} (hc : 1 ≤ c.bufWords) (hb : WriterInRange c b)
    (h : HostIn) (outReady : Bool) : WriterInRange c (wrtNext c b h outReady) := by
  have hr := wrtRun_inRange hc hb h.startCmd h.startTest outReady
  refine ⟨?len, hr.curLen, hr.idxInPacket, hr.idxOutside, hr.pattern,
    bufNext_wf c b.buf _ _ _ hb.wf, bufNext_inside _ _ _ hb.inside⟩
  rw [wrtNext_len]
  split
  · exact Nat.mod_lt _ (Nat.two_pow_pos _)
  · exact hb.len

/-! ### The counters of the other blocks (rules R442, R466, R491, R665) -/

theorem idlNext_cnt_le {b : Idl} (hb : b.cnt.toNat ≤ 9999) (inp : Option Word) (outReady : Bool) :
    (idlNext b inp outReady).cnt.toNat ≤ 9999 := by
  unfold idlNext
  split
  · exact hb
  · decide
  · dsimp only
    split
    next h =>
      have hpos : b.cnt ≠ 0#14 := by simp_all
      bv_omega
    next => exact hb

/-- The ranges of rule R109's counters. -/
structure TestCheckerInRange (c : Config) (b : Tck) : Prop where
  words : b.wcnt.toNat ≤ 1024
  packets : b.pktCnt < 2 ^ c.testCntBits
  errors : b.errCnt < 2 ^ c.testCntBits

theorem tckReset_inRange (c : Config) : TestCheckerInRange c tckReset := by
  constructor <;> simp [tckReset]

theorem incAt_lt (w x : Nat) : incAt w x < 2 ^ w := Nat.mod_lt _ (Nat.two_pow_pos w)

theorem tckCount_le (b : Tck) : (tckCount b).toNat ≤ 1024 := by
  unfold tckCount
  split
  · decide
  · rw [BitVec.toNat_add, BitVec.toNat_ofNat]; omega

theorem tckNext_inRange {c : Config} {b : Tck} (hb : TestCheckerInRange c b) (inp : Option Word) :
    TestCheckerInRange c (tckNext c b inp) := by
  cases inp with
  | none => exact hb
  | some w =>
    unfold tckNext
    dsimp only
    split
    · refine ⟨Nat.zero_le _, incAt_lt _ _, ?_⟩
      dsimp only
      split
      · exact incAt_lt _ _
      · exact hb.errors
    · exact ⟨tckCount_le b, hb.packets, hb.errors⟩

/-- The range of rule R117's sequence index, and its value outside a sequence. -/
structure TriggerInRange (b : Tin) : Prop where
  sequence : b.i.toNat ≤ 5
  idle : b.st = .copy → b.i = 0#3

theorem tinNext_inRange {b : Tin} (hb : TriggerInRange b) (strobe : Bool) (delay : Byte)
    (mode outReady : Bool) : TriggerInRange (tinNext b strobe delay mode outReady) := by
  unfold tinNext
  split
  next =>
    split
    · exact ⟨Nat.zero_le _, fun _ => rfl⟩
    · exact hb
  next hst =>
    split
    · split
      · exact ⟨Nat.zero_le _, fun _ => rfl⟩
      next hlast =>
        have hi := hb.sequence
        exact ⟨by dsimp only; bv_omega, by simp [hst]⟩
    · exact hb

theorem cnvSent_lanes {b : Cnv} (hb : b.full = false → b.idx = 0#2) (outReady : Bool) :
    (cnvSent b outReady).full = false → (cnvSent b outReady).idx = 0#2 := by
  unfold cnvSent
  split
  next h =>
    split
    · exact fun _ => rfl
    · simp_all
  next => exact hb

theorem cnvNext_lanes {b : Cnv} (hb : b.full = false → b.idx = 0#2) (inp : Option Word)
    (outReady : Bool) :
    (cnvNext b inp outReady).full = false → (cnvNext b inp outReady).idx = 0#2 := by
  unfold cnvNext
  split
  next =>
    split
    · exact fun _ => rfl
    · exact cnvSent_lanes hb outReady
  next => exact cnvSent_lanes hb outReady

/-! ### The whole core in range -/

/-- The two halves of the range invariant, block by block: a state of legal memories and ranges is one
whose blocks are each in range. -/
structure BlocksInRange (s : State) : Prop where
  cfg : s.cfg.valid = true
  rsm : ReassemblerInRange s.cfg s.rsm
  wrt : WriterInRange s.cfg s.wrt
  idl : s.idl.cnt.toNat ≤ 9999
  tck : TestCheckerInRange s.cfg s.tck
  tin : TriggerInRange s.tin
  cnv : s.cnv.full = false → s.cnv.idx = 0#2

theorem blocksInRange_iff (s : State) : BlocksInRange s ↔ LegalMemory s ∧ LegalRanges s := by
  constructor
  · rintro ⟨cfg, rsm, wrt, idl, tck, tin, cnv⟩
    exact ⟨⟨cfg, wrt.wf, wrt.inside, rsm.wf, rsm.inside⟩,
      ⟨rsm.wr, rsm.rd, rsm.wcount, rsm.slotCount, rsm.slotLens, wrt.len, wrt.curLen, wrt.idxInPacket,
        wrt.idxOutside, wrt.pattern, idl, tck.words, tck.packets, tck.errors, tin.sequence, tin.idle,
        cnv⟩⟩
  · rintro ⟨m, r⟩
    exact ⟨m.cfg, ⟨r.wr, r.rd, r.wcount, r.slotCount, r.slotLens, m.slotWf, m.slotInside⟩,
      ⟨r.len, r.curLen, r.idxInPacket, r.idxOutside, r.pattern, m.bufWf, m.bufInside⟩, r.countdown,
      ⟨r.testWords, r.testPackets, r.testErrors⟩, ⟨r.sequence, r.sequenceIdle⟩, r.lanes⟩

/-- Driving a row's signals changes the pins of the coming tick only (rule R119). -/
theorem driveRow_eq_pins (i : Instr) (s : State) :
    driveRow i s = { s with inp := (driveRow i s).inp } := by
  cases i <;> rfl

theorem driveRow_blocksInRange (i : Instr) (s : State) (hs : BlocksInRange s) :
    BlocksInRange (driveRow i s) := by
  rw [driveRow_eq_pins]
  exact ⟨hs.cfg, hs.rsm, hs.wrt, hs.idl, hs.tck, hs.tin, hs.cnv⟩

theorem tick_blocksInRange (s : State) (hs : BlocksInRange s) : BlocksInRange (tick s) := by
  obtain ⟨_, _, hbuf⟩ := valid_sizes s.cfg hs.cfg
  apply tick_blocks s
  case hr =>
    exact ⟨hs.cfg, rsmReset_inRange hs.cfg, wrtReset_inRange s.cfg, by simp [idlReset, idleReload],
      tckReset_inRange s.cfg, ⟨Nat.zero_le _, fun _ => rfl⟩, fun _ => rfl⟩
  case hn =>
    exact ⟨hs.cfg, rsmNext_inRange hs.rsm _ _ _, wrtNext_inRange hbuf hs.wrt _ _,
      idlNext_cnt_le hs.idl _ _, tckNext_inRange hs.tck _, tinNext_inRange hs.tin _ _ _ _,
      cnvNext_lanes hs.cnv _ _⟩

/-- Settles O40: each block keeps its own ranges, in a running tick by its step and in a reset tick by its
reset values, and no row touches a block but by its tick. -/
theorem stepKeepsMemoryAndRanges : Obligations.StepKeepsMemoryAndRanges := by
  intro s t hm hr h
  rw [← blocksInRange_iff]
  exact kept driveRow_blocksInRange tick_blocksInRange s t ((blocksInRange_iff s).2 ⟨hm, hr⟩) h

end Sys2Proof.Machine

/-!
What a row leaves unchanged: memory words no port writes, host registers without their enable, and receive
blocks without a word (rules R427, R470, R485, R522, R601, R602, R641, R647, R661, R665).
-/
namespace Sys2Proof.Machine

/-! ### What a block without a word keeps (rules R427, R470, R485, R522, R641, R661, R665) -/

@[simp] theorem hbrNext_none (b : Hbr) (e : Bool) : hbrNext b none e = b := rfl

@[simp] theorem tckNext_none (c : Config) (b : Tck) : tckNext c b none = b := rfl

@[simp] theorem chkNext_none (b : Chk) : chkNext b none = b := rfl

@[simp] theorem clsNext_none (c : Config) (b : Cls) : clsNext c b none = b := rfl

/-- Without a word the trigger-ack reader only ends its pulse. -/
@[simp] theorem ardNext_none (b : Ard) : ardNext b none = { b with pulse := false } := by
  unfold ardNext; split <;> simp_all

/-- Without a word the trigger reader only ends its pulse. -/
@[simp] theorem trdNext_none (b : Trd) : trdNext b none = { b with pulse := false } := by
  unfold trdNext; split <;> simp_all

/-! ### What a memory's write port leaves (rules R601, R641) -/

theorem memRead_bufNext_other {c : Config} {buf : Memory} {we : Bool} {addr a : Nat} (wdata : Data)
    (h : ¬ (we = true ∧ addr = a)) : memRead (bufNext c buf we addr wdata) a = memRead buf a := by
  unfold bufNext
  split
  next hw =>
    have hwe : we = true := by simp_all
    exact memRead_memWrite_other _ _ _ _ fun ha => h ⟨hwe, ha.symm⟩
  next => rfl

theorem memRead_rsmMem_other {c : Config} {b : Rsm} {a : Nat} (w : Word)
    (h : a ≠ slotIndex c b.wr b.wcount) : memRead (rsmMem c b w) a = memRead b.mem a := by
  unfold rsmMem
  split
  · exact memRead_memWrite_other _ _ _ _ h
  · rfl

theorem memRead_rsmTake_other {c : Config} {b : Rsm} {a : Nat} (inp : Option Word) (e : Bool)
    (h : a ≠ slotIndex c b.wr b.wcount) : memRead (rsmTake c b inp e).mem a = memRead b.mem a := by
  cases inp with
  | none => rfl
  | some w => exact memRead_rsmMem_other w h

/-! ### What the signals of a row leave (rules R118, R119) -/

section DriveRow
variable (i : Instr) (s : State)

theorem driveRow_rst : (driveRow i s).inp.rst = s.inp.rst := by cases i <;> rfl
theorem driveRow_trd : (driveRow i s).trd = s.trd := by cases i <;> rfl
theorem driveRow_ard : (driveRow i s).ard = s.ard := by cases i <;> rfl
theorem driveRow_cls : (driveRow i s).cls = s.cls := by cases i <;> rfl
theorem driveRow_chkHb : (driveRow i s).chkHb = s.chkHb := by cases i <;> rfl
theorem driveRow_chkCmd : (driveRow i s).chkCmd = s.chkCmd := by cases i <;> rfl
theorem driveRow_hbr : (driveRow i s).hbr = s.hbr := by cases i <;> rfl
theorem driveRow_tck : (driveRow i s).tck = s.tck := by cases i <;> rfl
theorem driveRow_rsm : (driveRow i s).rsm = s.rsm := by cases i <;> rfl
theorem driveRow_wrt : (driveRow i s).wrt = s.wrt := by cases i <;> rfl

/-! No row changes what the receive blocks hand on in its tick. -/

theorem rxDcd_driveRow : rxDcd (driveRow i s) = rxDcd s := by cases i <;> rfl
theorem rxTrd_driveRow : rxTrd (driveRow i s) = rxTrd s := by cases i <;> rfl
theorem clsTaken_driveRow : clsTaken (driveRow i s) = clsTaken s := by cases i <;> rfl
theorem rxPort_driveRow (p : Port) : rxPort (driveRow i s) p = rxPort s p := by cases i <;> rfl
theorem rxHb_driveRow : rxHb (driveRow i s) = rxHb s := by cases i <;> rfl
theorem rxCmd_driveRow : rxCmd (driveRow i s) = rxCmd s := by cases i <;> rfl

end DriveRow

/-! ### A row's tick -/

/-- Settles O44: a row that answers leaves the state or runs the tick with its signals on the pins, and in
that tick each block keeps what no enable and no word names. -/
theorem unwrittenWordsAndIdleReceiversKeep : Obligations.UnwrittenWordsAndIdleReceiversKeep := by
  intro i s t hrst h
  rcases exec_next i s t h with rfl | rfl
  case inl => simp
  case inr =>
    have hr : (driveRow i s).inp.rst = false := (driveRow_rst i s).trans hrst
    simp only [tick_cfg, driveRow_cfg, tick_wrt _ hr, driveRow_wrt, tick_rsm _ hr, driveRow_rsm,
      rxCmd_driveRow, tick_hbr _ hr, driveRow_hbr, rxHb_driveRow, tick_tck _ hr, driveRow_tck,
      tick_chkHb _ hr, driveRow_chkHb, tick_chkCmd _ hr, driveRow_chkCmd, rxPort_driveRow,
      tick_cls _ hr, driveRow_cls, clsTaken_driveRow, tick_ard _ hr, driveRow_ard, rxTrd_driveRow,
      tick_trd _ hr, driveRow_trd, rxDcd_driveRow]
    refine ⟨trivial, ?len, ?buf, ?rd, ?slots, ?rsm, ?hbr, ?tck, ?chkHb, ?chkCmd, ?cls, ?ard, ?trd⟩
    case len => intro hlen; simp [hlen]
    case buf => exact fun a ha => memRead_bufNext_other _ ha
    case rd => intro hrd; simp [hrd]
    case slots => exact fun a ha => memRead_rsmTake_other _ _ ha
    case rsm | hbr | tck | chkHb | chkCmd | cls | ard | trd => intro hw; simp [hw]

end Sys2Proof.Machine

/-!
Rows as labels of ticks (log entry 4): what a row answers, and that the fetched row takes place.
-/
namespace Sys2Proof.Machine

/-! ### A row is its tick or is turned away (log entry 4) -/

/-- A driven row takes place once its signals are on the pins: driving them again changes nothing. -/
theorem occurs_driveRow (i : Instr) (s : State) (h : driven i = true) :
    occurs i (driveRow i s) = true := by
  cases i with
  | decode w => simp [driveRow, occurs, offersWord]
  | hostStartCmd => simp [driveRow, occurs, pinStartCmd]
  | hostStartTest => simp [driveRow, occurs, pinStartTest]
  | hostBufWrite a v => simp [driveRow, occurs, pinBufWrite]
  | hostLenWrite n => simp [driveRow, occurs, pinLenWrite]
  | hostRdWrite n => simp [driveRow, occurs, pinRdWrite]
  | hostAckErrors => simp [driveRow, occurs, pinAckErrors]
  | hostSlotRead slot word => simp [driveRow, occurs, pinSlotRead]
  | hostTrigStrobe d m => simp [driveRow, occurs, pinTrigStrobe]
  | hostTrigAckStrobe => simp [driveRow, occurs, pinTrigAckStrobe]
  | _ => cases h

/-- A row that takes place is the tick of the state. -/
theorem exec_of_occurs {i : Instr} {s : State} (hc : s.cfg.valid = true) (h : occurs i s = true) :
    exec i s = .next (tick s) := by
  cases hd : driven i
  · rw [exec_undriven i s hd, h, rowTick_takes s hc]
  · rw [exec_driven i s hd, driveRow_of_occurs i s h, rowTick_takes s hc]

/-- Settles O36, by the two kinds of row, driven from outside or not. -/
theorem rowIsTickOrTurnedAway : Obligations.RowIsTickOrTurnedAway := by
  intro i s hc
  refine ⟨fun hd => ⟨?driven, occurs_driveRow i s hd⟩, fun _ => exec_of_occurs hc, fun hd ho => ?away⟩
  case driven =>
    rw [exec_driven i s hd]
    exact rowTick_takes _ ((driveRow_cfg i s).symm ▸ hc)
  case away => rw [exec_undriven i s hd, ho, rowTick_turned_away s hc]

/-! ### The row of a received word, reader by reader (rules R470, R485, R486, R526 to R529) -/

section Received
variable {s : State} {w : DWord}

/-- A corrected character that a place has no code for is no row there. -/
theorem rejectChar_error (b : BitVec 9) : ∃ e, rejectChar b = .error e := by
  unfold rejectChar; split <;> exact ⟨_, rfl⟩

theorem fetchReceived_copy (hst : s.trd.st = .copy) :
    fetchReceived s w =
      if w.dchar = trigIndic282 ∧ w.dcharK = true then .rxTrig282
      else if w.dchar = trigIndic284 ∧ w.dcharK = true then .rxTrig284
      else fetchAck s w := by
  obtain ⟨e, he⟩ := rejectChar_error (chr9 w.dchar w.dcharK)
  simp only [fetchReceived, hst, decode, dchar9, chr9_inj, he]
  split_ifs <;> rfl

theorem fetchAck_copy (hst : s.ard.st = .copy) :
    fetchAck s w = if w.dchar = ioAck ∧ w.dcharK = true then .rxIoack else fetchClassified s w := by
  obtain ⟨e, he⟩ := rejectChar_error (chr9 w.dchar w.dcharK)
  simp only [fetchAck, hst, decode, dchar9, chr9_inj, he]
  split_ifs <;> rfl

theorem fetchAck_readAck (hst : s.ard.st = .readAck) :
    fetchAck s w = if w.dchar = ackByte ∧ w.dcharK = false then .rxAckdata else .triggerAckRead := by
  obtain ⟨e, he⟩ := rejectChar_error (chr9 w.dchar w.dcharK)
  simp only [fetchAck, hst, decode, dchar9, chr9_inj, he]
  split_ifs <;> rfl

/-- The row of a word in the type position that is neither idle nor a marker (rule R528). -/
def fetchType (s : State) (w : DWord) : Instr :=
  match decodeType s.cfg (dchar9 w) with
  | .ok i => i
  | .error _ => plainWord s w

theorem fetchClassified_eq :
    fetchClassified s w =
      if isIdle w = true then .rxIdle ⟨w.data, w.k⟩
      else if isStart w = true then .rxStart
      else if isEnd w = true then .rxEnd
      else if s.cls.st = .type then fetchType s w
      else plainWord s w := by
  obtain ⟨e, he⟩ := rejectChar_error (chr9 w.dchar w.dcharK)
  have hstart : isStart w = true ↔ w.dchar = pakStart ∧ w.dcharK = true := by
    simp [isStart, and_comm]
  have hend : isEnd w = true ↔ w.dchar = pakEnd ∧ w.dcharK = true := by
    simp [isEnd, and_comm]
  simp only [hstart, hend, fetchClassified, isIdle, decode, dchar9, chr9_inj, data36_word36,
    marks36_word36, he]
  split_ifs <;> rfl

/-- A row of the type position names the class of the word (rule R325). -/
theorem decodeType_ok {c : Config} {i : Instr} (h : decodeType c (dchar9 w) = .ok i) :
    (i = .rxTypeTest ∧ typeOf c w = some .test) ∨ (i = .rxTypeStream ∧ typeOf c w = some .stream) ∨
    (i = .rxTypeHeartbeat ∧ typeOf c w = some .heartbeat) ∨
    (i = .rxTypeCommand03 ∧ typeOf c w = some .command ∧ w.dchar = 0x03#8) ∨
    (i = .rxTypeCommand06 ∧ typeOf c w = some .command ∧ w.dchar = 0x06#8) := by
  have hchar : BitVec.extractLsb' 0 8 (dchar9 w) = w.dchar := chr9_value _ _
  have htype : typeOfChar c (BitVec.extractLsb' 0 8 (dchar9 w)) ((dchar9 w).getLsbD 8) = typeOf c w := by
    rw [hchar, dchar9, chr9_mark, typeOf]
  unfold decodeType at h
  rw [htype] at h
  split at h
  next ht => cases h; simp [ht]
  next ht => cases h; simp [ht]
  next ht => cases h; simp [ht]
  next ht =>
    split_ifs at h with h3 h6
    · cases h; rw [h3] at hchar; simp [ht, ← hchar]
    · cases h; rw [h6] at hchar; simp [ht, ← hchar]
  next => cases h

theorem clsSees_eq (hw : rxArd s = some w) (p : DWord → Bool) : clsSees p s = p w := by
  simp only [clsSees, hw]

theorem plainWord_occurs (hw : rxArd s = some w) (hidle : isIdle w = false) :
    occurs (plainWord s w) s = true := by
  unfold plainWord
  split
  next hbad => exact (clsSees_eq hw _).trans hbad
  next hgood =>
    refine (clsSees_eq hw _).trans ?_
    simp [hidle, hgood]

theorem fetchType_occurs (hw : rxArd s = some w) (hst : s.cls.st = .type)
    (hidle : isIdle w = false) (hother : classOf w = .other) : occurs (fetchType s w) s = true := by
  unfold fetchType
  split
  next i hi =>
    rcases decodeType_ok hi with ⟨rfl, ht⟩ | ⟨rfl, ht⟩ | ⟨rfl, ht⟩ | ⟨rfl, ht, hc⟩ | ⟨rfl, ht, hc⟩
    case inl | inr.inl | inr.inr.inl => simp [occurs, receivesType, hst, clsSees_eq hw, hother, ht]
    case inr.inr.inr.inl | inr.inr.inr.inr =>
      simp [occurs, receivesCommand, hst, clsSees_eq hw, hother, ht, hc]
  next => exact plainWord_occurs hw hidle

theorem fetchClassified_occurs (hw : rxArd s = some w) : occurs (fetchClassified s w) s = true := by
  rw [fetchClassified_eq]
  split_ifs with hidle hstart hend hst
  · simp [occurs, receivesIdle, clsSees_eq hw, hidle]
  · simp [occurs, receivesStart, clsSees_eq hw, classOf, hidle, hstart]
  · simp [occurs, receivesEnd, clsSees_eq hw, classOf, hidle, hstart, hend]
  · exact fetchType_occurs hw hst (by simpa using hidle) (by simp [classOf, hidle, hstart, hend])
  · exact plainWord_occurs hw (by simpa using hidle)

theorem fetchAck_occurs (hw : rxTrd s = some w) : occurs (fetchAck s w) s = true := by
  cases hst : s.ard.st with
  | readAck =>
    rw [fetchAck_readAck hst]
    split
    next hack => simp [occurs, receivesAckData, hst, hw, isAckData, hack]
    next => simp [occurs, ardWorks, hst, hw]
  | copy =>
    rw [fetchAck_copy hst]
    split
    next hack => simp [occurs, receivesIoack, hst, hw, isIoack, hack]
    next hno =>
      have hack : isIoack w = false := by
        simpa [isIoack, and_comm] using hno
      exact fetchClassified_occurs (by simp [rxArd, ardOut, hst, hw, hack])

theorem fetchReceived_occurs (hw : rxDcd s = some w) : occurs (fetchReceived s w) s = true := by
  cases hst : s.trd.st with
  | readDelay => simp [fetchReceived, hst, occurs, trdWorks, hw]
  | readLinktrig => simp [fetchReceived, hst, occurs, trdWorks, hw]
  | copy =>
    rw [fetchReceived_copy hst]
    split_ifs with h282 h284
    · simp [occurs, receivesTrig, hst, hw, h282]
    · simp [occurs, receivesTrig, hst, hw, h284]
    · have hno : isTrig w = false := by
        cases hk : w.dcharK <;> simp_all [isTrig]
      exact fetchAck_occurs (by simp [rxTrd, trdOut, hst, hw, hno])

end Received

/-! ### The row of the host's signals (rule R303) -/

theorem decodeHost_occurs (s : State) : occurs (decodeHost s.inp.host) s = true := by
  unfold decodeHost
  split_ifs with hcmd htest hbuf hlen hrd hack htrig htrigAck
  · simp [occurs, pinStartCmd, ← hcmd]
  · simp [occurs, pinStartTest, ← htest]
  · simp [occurs, pinBufWrite, ← hbuf]
  · simp [occurs, pinLenWrite, ← hlen]
  · simp [occurs, pinRdWrite, ← hrd]
  · simp [occurs, pinAckErrors, ← hack]
  · simp [occurs, pinTrigStrobe, ← htrig]
  · simp [occurs, pinTrigAckStrobe, ← htrigAck]
  · simp [occurs, pinSlotRead]

/-! ### The row of the transmit side's content (rule R683) -/

section Offered
variable {s : State} {i : Instr}

/-- A word of the command buffer read as a type word is four copies of its byte (rule R313). -/
theorem decode_typeOut_ok {c : Config} {d : Data}
    (h : decode c .typeOut (.word36 (word36 d noMarks)) = .ok i) : ∃ t, i = .typeWord t ∧ d = rep4 t := by
  simp only [decode, data36_word36] at h
  split_ifs at h with hd
  cases h
  exact ⟨_, rfl, by simpa using congrArg data36 hd⟩

/-- A word of the test pattern is read as the row of the counter of its place (rule R314). -/
theorem decode_patternOut_ok {c : Config} {n : BitVec 12} {b : BitVec 36}
    (h : decode c (.patternOut n) (.word36 b) = .ok i) : i = .patWord n := by
  simp only [decode] at h
  split_ifs at h
  cases h; rfl

theorem decode_triggerOut (c : Config) (mode : Bool) (d : Byte) :
    decode c .triggerOut (.char9x6 (seqBits mode d)) =
      .ok (if mode then .trigSeqLinktrig d else .trigSeqNormal d) := by
  cases mode <;> simp [decode, decodeSequence, seqBits_mode]

theorem decode_trailerOut (c : Config) (d : Data) :
    decode c .trailerOut (.word36 (word36 d noMarks)) = .ok (.crcTrailerWord d) := by
  simp [decode]

/-- What the transmit side offers, where it is a code of the table, is a row that takes place. -/
theorem offered_occurs {p : Place} {code : Code} (ho : offeredCode s = some (p, code))
    (hi : decode s.cfg p code = .ok i) : occurs i s = true := by
  unfold offeredCode at ho
  split at ho
  next htin =>
    cases ho
    rw [decode_triggerOut] at hi
    cases hi
    cases hm : s.tin.mode <;> simp [occurs, emitsTrigger, htin, hm]
  split at ho
  next hain => cases ho; cases hi; simp [occurs, emitsIoack, hain]
  split at ho
  next hain => cases ho; cases hi; simp [occurs, emitsAckData, hain]
  split at ho
  next hidl => cases ho; cases hi; simp [occurs, emitsIdle, hidl]
  split at ho
  next hfrm => cases ho; cases hi; simp [occurs, emitsStart, hfrm]
  split at ho
  next hfrm => cases ho; cases hi; simp [occurs, emitsEnd, hfrm]
  split at ho
  next hcin =>
    cases ho
    rw [decode_trailerOut] at hi
    cases hi; simp [occurs, emitsTrailer, hcin]
  split at ho
  next hwrt => cases ho; cases hi; simp [occurs, emitsTypeTest, hwrt]
  next hwrt =>
    cases ho
    obtain rfl := decode_patternOut_ok hi
    simp [occurs, emitsPat, hwrt]
  next hwrt =>
    split at ho
    next hidx =>
      cases ho
      obtain ⟨t, rfl, ht⟩ := decode_typeOut_ok hi
      simp [occurs, emitsType, hwrt, hidx, ← ht]
    next => cases ho
  next => cases ho

theorem fetchOffered_occurs (s : State) : occurs (fetchOffered s) s = true := by
  unfold fetchOffered
  split
  next => rfl
  next p code ho =>
    split
    next i hi => exact offered_occurs ho hi
    next => rfl

end Offered

/-- The row fetched in a state takes place in it. -/
theorem fetch_occurs (s : State) : occurs (fetch s) s = true := by
  unfold fetch
  split
  next w hw => exact fetchReceived_occurs hw
  next =>
    split_ifs with hhost hrx
    · exact decodeHost_occurs s
    · simp [occurs, offersWord, hrx]
    · exact fetchOffered_occurs s

/-- Settles O30: the fetched row takes place, so it is the tick, as every row that takes place is. -/
theorem stepRunsDecodedRow : Obligations.StepRunsDecodedRow := by
  intro s hc
  have hf := fetch_occurs s
  have hinp : nextInputs s = s.pending.headD Inputs.quiet := by
    unfold nextInputs; cases s.pending <;> rfl
  exact ⟨hf, rfl, exec_of_occurs hc hf, tick_out s, (tick_inp s).trans hinp, tick_pending s, tick_ticks s,
    tick_cfg s, fun _ ho => exec_of_occurs hc ho⟩

end Sys2Proof.Machine

/-!
The classifier (rules R521 to R538): what a word of each kind does to it in each state, when it is ready
through the receive side (rules R522, R535, R690), and its tick.
-/
namespace Sys2Proof.Machine

/-! ### The kinds of a word that is no idle word (rules R320 to R323, R325, R329, R521) -/

section WordKinds
variable {c : Config} {w : DWord}

/-- No word is both a start and an end marker: they are different characters (rules R308, R309). -/
theorem isEnd_of_isStart (h : isStart w = true) : isEnd w = false := by
  obtain ⟨-, hchar⟩ : w.dcharK = true ∧ w.dchar = pakStart := by simpa [isStart] using h
  simp [isEnd, hchar, pakStart, pakEnd]

/-- The class of a word that is no idle word, with the two markers it tests. -/
theorem classOf_cases (hidle : isIdle w = false) :
    (classOf w = .start ∧ isStart w = true ∧ isEnd w = false) ∨
    (classOf w = .stop ∧ isStart w = false ∧ isEnd w = true) ∨
    (classOf w = .other ∧ isStart w = false ∧ isEnd w = false) := by
  cases hs : isStart w
  case true => simp [classOf, hidle, hs, isEnd_of_isStart hs]
  case false => cases he : isEnd w <;> simp [classOf, hidle, hs, he]

/-- Every control character is an unknown type (rule R329). -/
theorem typeOf_of_mark (h : w.dcharK = true) : typeOf c w = none := by
  simp [typeOf, typeOfChar, h]

theorem isStart_of_typeOf {p : Port} (h : typeOf c w = some p) : isStart w = false := by
  cases hk : w.dcharK
  · simp [isStart, hk]
  · simp [typeOf_of_mark hk] at h

theorem isEnd_of_typeOf {p : Port} (h : typeOf c w = some p) : isEnd w = false := by
  cases hk : w.dcharK
  · simp [isEnd, hk]
  · simp [typeOf_of_mark hk] at h

theorem isTrig_eq_false_iff :
    isTrig w = false ↔ (w.dcharK = true → w.dchar ≠ trigIndic282 ∧ w.dchar ≠ trigIndic284) := by
  simp [isTrig]

theorem isIoack_eq_false_iff : isIoack w = false ↔ (w.dcharK = true → w.dchar ≠ ioAck) := by
  simp [isIoack]

end WordKinds

/-! ### The classifier's error, next state and emitted word, state by state (rules R527 to R529, R533) -/

section ClassifierBlock
variable {c : Config} {b : Cls} {w : DWord}

theorem framingBad_scan (hst : b.st = .scan) (hidle : isIdle w = false) :
    framingBad c b w = isEnd w := by
  rcases classOf_cases hidle with ⟨hc, -, he⟩ | ⟨hc, -, he⟩ | ⟨hc, -, he⟩ <;>
    simp [framingBad, hst, hc, he]

theorem framingBad_type (hst : b.st = .type) (hidle : isIdle w = false) :
    framingBad c b w = (isStart w || isEnd w || (typeOf c w).isNone) := by
  rcases classOf_cases hidle with ⟨hc, hs, he⟩ | ⟨hc, hs, he⟩ | ⟨hc, hs, he⟩ <;>
    simp [framingBad, hst, hc, hs, he]

theorem framingBad_payload (hst : b.st = .payload) (hidle : isIdle w = false) :
    framingBad c b w = isStart w := by
  rcases classOf_cases hidle with ⟨hc, hs, -⟩ | ⟨hc, hs, -⟩ | ⟨hc, hs, -⟩ <;>
    simp [framingBad, hst, hc, hs]

theorem clsNext_scan (hst : b.st = .scan) (hidle : isIdle w = false) :
    clsNext c b (some w) = if isStart w then { b with st := .type } else b := by
  rcases classOf_cases hidle with ⟨hc, hs, -⟩ | ⟨hc, hs, -⟩ | ⟨hc, hs, -⟩ <;>
    simp [clsNext, clsScan, hst, hc, hs]

/-- A type word selects the port of its class (rule R528). -/
theorem clsNext_type_known {p : Port} (hst : b.st = .type) (hidle : isIdle w = false)
    (hp : typeOf c w = some p) :
    clsNext c b (some w) = { b with port := p, hv := false, st := .payload } := by
  have hc : classOf w = .other := by
    simp [classOf, hidle, isStart_of_typeOf hp, isEnd_of_typeOf hp]
  simp [clsNext, clsType, hst, hc, hp]

theorem clsNext_payload (hst : b.st = .payload) (hidle : isIdle w = false) :
    clsNext c b (some w) =
      if isStart w then { b with hv := false, st := .type }
      else if isEnd w then { b with hv := false, st := .scan }
      else { b with hData := w.data, hK := w.k, hv := true } := by
  rcases classOf_cases hidle with ⟨hc, hs, he⟩ | ⟨hc, hs, he⟩ | ⟨hc, hs, he⟩ <;>
    simp [clsNext, clsPayload, hst, hc, hs, he]

@[simp] theorem clsEmit_none (b : Cls) : clsEmit b none = none := rfl

@[simp] theorem clsError_none (c : Config) (b : Cls) : clsError c b none = false := rfl

/-- Words leave the classifier in PAYLOAD only (rule R522). -/
theorem clsEmit_outside_payload (hst : b.st ≠ .payload) (taken : Option DWord) :
    clsEmit b taken = none := by
  cases taken with
  | none => rfl
  | some w =>
    cases hb : b.st with
    | scan => simp [clsEmit, hb]
    | type => simp [clsEmit, hb]
    | payload => exact absurd hb hst

/-- In PAYLOAD a word pushes the held one out, as the packet's last when it is a marker (rule R529). -/
theorem clsEmit_payload (hst : b.st = .payload) (hidle : isIdle w = false) :
    clsEmit b (some w) =
      if b.hv then some ⟨b.hData, b.hK, isStart w || isEnd w⟩ else none := by
  rcases classOf_cases hidle with ⟨hc, hs, he⟩ | ⟨hc, hs, he⟩ | ⟨hc, hs, he⟩ <;>
    simp [clsEmit, hst, hc, hs, he]

end ClassifierBlock

/-! ### Transparent and ready readers (rules R470, R485) -/

section Readers
variable {inp : Option DWord}

theorem trdOut_transparent {b : Trd} (hst : b.st = .copy) (h : ∀ w, inp = some w → isTrig w = false) :
    trdOut b inp = inp := by
  cases inp with
  | none => simp [trdOut, hst]
  | some w => simp [trdOut, hst, h w rfl]

theorem trdInReady_transparent {b : Trd} (r : Bool) (hst : b.st = .copy)
    (h : ∀ w, inp = some w → isTrig w = false) : trdInReady b inp r = r := by
  cases inp with
  | none => simp [trdInReady, hst]
  | some w => simp [trdInReady, hst, h w rfl]

theorem ardOut_transparent {b : Ard} (hst : b.st = .copy) (h : ∀ w, inp = some w → isIoack w = false) :
    ardOut b inp = inp := by
  cases inp with
  | none => simp [ardOut, hst]
  | some w => simp [ardOut, hst, h w rfl]

theorem ardInReady_transparent {b : Ard} (r : Bool) (hst : b.st = .copy)
    (h : ∀ w, inp = some w → isIoack w = false) : ardInReady b inp r = r := by
  cases inp with
  | none => simp [ardInReady, hst]
  | some w => simp [ardInReady, hst, h w rfl]

/-- A reader never stalls before a ready consumer. -/
@[simp] theorem trdInReady_ready (b : Trd) (inp : Option DWord) : trdInReady b inp true = true := by
  unfold trdInReady; split <;> simp

@[simp] theorem ardInReady_ready (b : Ard) (inp : Option DWord) : ardInReady b inp true = true := by
  unfold ardInReady; split <;> simp

end Readers

/-! ### The classifier on the receive side (rules R522, R535, R538, R690) -/

section ReceiveSide
variable {s : State} {w : DWord}

/-- Of the four ports only the stream's consumer can stall: the checkers' consumers are always ready. -/
theorem rdyPort_eq_false_iff (p : Port) :
    rdyPort s p = false ↔ p = .stream ∧ s.inp.streamReady = false := by
  cases p <;> simp [rdyPort, chkInReady]

theorem rdyCls_eq_false_iff :
    rdyCls s = false ↔
      s.cls.st = .payload ∧ s.cls.hv = true ∧ s.cls.port = .stream ∧ s.inp.streamReady = false := by
  simp [rdyCls, clsInReady, rdyPort_eq_false_iff, and_assoc]

theorem rdyCls_of_streamReady (h : s.inp.streamReady = true) : rdyCls s = true := by
  cases hr : rdyCls s with
  | true => rfl
  | false =>
    obtain ⟨-, -, -, hno⟩ := rdyCls_eq_false_iff.1 hr
    simp [h] at hno

theorem clsTaken_of_none (h : rxArd s = none) : clsTaken s = none := by simp [clsTaken, h]

theorem clsTaken_of_stalled (h : rdyCls s = false) : clsTaken s = none := by simp [clsTaken, h]

theorem clsTaken_of_ready (hw : rxArd s = some w) (hr : rdyCls s = true) : clsTaken s = some w := by
  simp [clsTaken, hw, hr]

theorem rxPort_selected (s : State) : rxPort s s.cls.port = clsEmit s.cls (clsTaken s) := by
  simp [rxPort]

theorem rxPort_other {p : Port} (h : p ≠ s.cls.port) : rxPort s p = none := by
  simp [rxPort, h.symm]

/-- Two readers in COPY with no marker of theirs before them are wires: the decoder's word is the
classifier's, and the classifier's readiness the decoder's. -/
theorem readers_transparent (htrd : s.trd.st = .copy) (hard : s.ard.st = .copy)
    (htrig : ∀ w, rxDcd s = some w → isTrig w = false)
    (hack : ∀ w, rxDcd s = some w → isIoack w = false) :
    rxArd s = rxDcd s ∧ rdyDcd s = rdyCls s := by
  have hin : rxTrd s = rxDcd s := trdOut_transparent htrd htrig
  constructor
  · rw [rxArd, hin, ardOut_transparent hard hack]
  · rw [rdyDcd, dcdInReady, rdyTrd, trdInReady_transparent _ htrd htrig, rdyArd, hin,
      ardInReady_transparent _ hard hack]

theorem rdyDcd_of_rdyCls (h : rdyCls s = true) : rdyDcd s = true := by
  simp [rdyDcd, dcdInReady, rdyTrd, rdyArd, h]

/-! ### The classifier's tick -/

/-- The step of an admissible core is its tick, whatever row is fetched. -/
theorem step_eq_tick (hc : s.cfg.valid = true) : step s = .next (tick s) :=
  exec_of_occurs hc (fetch_occurs s)

theorem tick_decodeError (s : State) : (tick s).out.decodeError = clsError s.cfg s.cls (clsTaken s) := by
  rw [tick_out]; rfl

theorem tick_rxReady (s : State) : (tick s).out.rxReady = rdyDcd s := by
  rw [tick_out]; rfl

/-- A classifier that takes no word stands still and emits nothing (rules R522, R536). -/
theorem classifier_stands_still (hs : runs s) (h : clsTaken s = none) :
    (∀ p, rxPort s p = none) ∧
      ∃ t, step s = .next t ∧ t.cls = s.cls ∧ t.out.decodeError = false := by
  obtain ⟨hc, hrst⟩ := hs
  refine ⟨fun p => by simp [rxPort, h], tick s, step_eq_tick hc, ?_, ?_⟩
  · simp [tick_cls s hrst, h]
  · simp [tick_decodeError, h]

/-- A word that is neither idle nor misplaced is CLASSIFY_PACKET's, and that row is its tick. -/
theorem exec_classifyPacket (hc : s.cfg.valid = true) (hw : rxArd s = some w)
    (hidle : isIdle w = false) (hgood : framingBad s.cfg s.cls w = false) :
    exec .classifyPacket s = .next (tick s) :=
  exec_of_occurs hc ((clsSees_eq hw _).trans (by simp [hidle, hgood]))

end ReceiveSide

/-- Settles O14: the classifier is ready but before a stalled stream consumer, and a word it takes without
an error does what its state's arm says. -/
theorem classifyStep : Obligations.ClassifyStep := by
  refine ⟨?streamOut, ?waiting, ?accepted⟩
  case streamOut =>
    intro s hc
    exact ⟨tick s, step_eq_tick hc, by rw [tick_out]; rfl⟩
  case waiting =>
    intro s hs
    refine ⟨fun hn => classifier_stands_still hs (clsTaken_of_none hn), rdyCls_eq_false_iff,
      fun hr => classifier_stands_still hs (clsTaken_of_stalled hr), ?transparent, ?ready⟩
    case transparent =>
      intro htrd hard hmark
      obtain ⟨hword, hready⟩ := readers_transparent htrd hard
        (fun w hw => isTrig_eq_false_iff.2 fun hk =>
          have ⟨h282, h284, _⟩ := hmark w hw hk
          ⟨h282, h284⟩)
        (fun w hw => isIoack_eq_false_iff.2 fun hk =>
          have ⟨_, _, hack⟩ := hmark w hw hk
          hack)
      exact ⟨hword, tick s, step_eq_tick hs.1, (tick_rxReady s).trans hready⟩
    case ready =>
      intro hstream
      exact ⟨tick s, step_eq_tick hs.1,
        (tick_rxReady s).trans (rdyDcd_of_rdyCls (rdyCls_of_streamReady hstream))⟩
  case accepted =>
    intro w s ⟨hc, hrst⟩ hw hidle hr hgood
    have htaken := clsTaken_of_ready hw hr
    refine ⟨tick s, exec_classifyPacket hc hw hidle hgood, ?error, fun p => rxPort_other, ?_⟩
    case error => rw [tick_decodeError, htaken]; exact hgood
    rw [tick_cls s hrst, rxPort_selected, htaken]
    refine ⟨fun hst => ?scan, fun hst => ?type, fun hst => ?payload⟩
    case scan => exact ⟨clsNext_scan hst hidle, clsEmit_outside_payload (by simp [hst]) _⟩
    case type =>
      simp only [framingBad_type hst hidle, Bool.or_eq_false_iff] at hgood
      obtain ⟨-, hknown⟩ := hgood
      obtain ⟨p, hp⟩ : ∃ p, typeOf s.cfg w = some p := by
        simpa [Option.isSome_iff_exists] using hknown
      exact ⟨⟨p, hp, clsNext_type_known hst hidle hp⟩, clsEmit_outside_payload (by simp [hst]) _⟩
    case payload =>
      rw [framingBad_payload hst hidle] at hgood
      rw [clsNext_payload hst hidle, clsEmit_payload hst hidle]
      simp [hgood]

end Sys2Proof.Machine

/-!
The decoder and the encoder are inverse at every place but the host port (rules R300 to R303, R333), and the
words of the host's table (log entry 5).
-/
namespace Sys2Proof.Machine

/-! ### Decoding what was encoded -/

/-- Every row's code is read as that row, at the place it stands: one law per row. -/
theorem decode_encode : ∀ i, Laws.RoundTrip.Statement i
  | .startWord => Laws.RoundTrip.startWord
  | .endWord => Laws.RoundTrip.endWord
  | .idleWord => Laws.RoundTrip.idleWord
  | .ioackWord => Laws.RoundTrip.ioackWord
  | .ackDataWord => Laws.RoundTrip.ackDataWord
  | .typeTestWord => Laws.RoundTrip.typeTestWord
  | .typeWord t => Laws.RoundTrip.typeWord t
  | .patWord n => Laws.RoundTrip.patWord n
  | .crcTrailerWord trailer => Laws.RoundTrip.crcTrailerWord trailer
  | .trigSeqNormal d => Laws.RoundTrip.trigSeqNormal d
  | .trigSeqLinktrig d => Laws.RoundTrip.trigSeqLinktrig d
  | .rxIdle w => Laws.RoundTrip.rxIdle w
  | .rxStart => Laws.RoundTrip.rxStart
  | .rxEnd => Laws.RoundTrip.rxEnd
  | .rxTrig282 => Laws.RoundTrip.rxTrig282
  | .rxTrig284 => Laws.RoundTrip.rxTrig284
  | .rxIoack => Laws.RoundTrip.rxIoack
  | .rxAckdata => Laws.RoundTrip.rxAckdata
  | .rxTypeTest => Laws.RoundTrip.rxTypeTest
  | .rxTypeStream => Laws.RoundTrip.rxTypeStream
  | .rxTypeHeartbeat => Laws.RoundTrip.rxTypeHeartbeat
  | .rxTypeCommand03 => Laws.RoundTrip.rxTypeCommand03
  | .rxTypeCommand06 => Laws.RoundTrip.rxTypeCommand06
  | .decode w => Laws.RoundTrip.decode w
  | .crcAppend => Laws.RoundTrip.crcAppend
  | .crcCheck p => Laws.RoundTrip.crcCheck p
  | .idleInsert => Laws.RoundTrip.idleInsert
  | .triggerRead => Laws.RoundTrip.triggerRead
  | .triggerAckRead => Laws.RoundTrip.triggerAckRead
  | .wordToChars => Laws.RoundTrip.wordToChars
  | .framePacket => Laws.RoundTrip.framePacket
  | .classifyPacket => Laws.RoundTrip.classifyPacket
  | .dropIdle => Laws.RoundTrip.dropIdle
  | .framingError => Laws.RoundTrip.framingError
  | .storeCommandPacket => Laws.RoundTrip.storeCommandPacket
  | .heartbeatParse => Laws.RoundTrip.heartbeatParse
  | .testCheck => Laws.RoundTrip.testCheck
  | .prioritySelect => Laws.RoundTrip.prioritySelect
  | .hostStartCmd => Laws.RoundTrip.hostStartCmd
  | .hostStartTest => Laws.RoundTrip.hostStartTest
  | .hostBufWrite a v => Laws.RoundTrip.hostBufWrite a v
  | .hostLenWrite n => Laws.RoundTrip.hostLenWrite n
  | .hostRdWrite n => Laws.RoundTrip.hostRdWrite n
  | .hostAckErrors => Laws.RoundTrip.hostAckErrors
  | .hostSlotRead slot word => Laws.RoundTrip.hostSlotRead slot word
  | .hostTrigStrobe d m => Laws.RoundTrip.hostTrigStrobe d m
  | .hostTrigAckStrobe => Laws.RoundTrip.hostTrigAckStrobe

/-- Settles O33: the round-trip law of the row. -/
theorem decodeInvertsEncode : Obligations.DecodeInvertsEncode :=
  fun c i hc hw => decode_encode i c hc hw

/-! ### Encoding what was decoded -/

/-- What a code must be to be a row's code at a place: the row's own bits, at the row's own place, with
operands its row of the table admits. -/
structure CodeOf (c : Config) (p : Place) (code : Code) (i : Instr) : Prop where
  bits : encode c i = code
  stands : placeOf i = p
  admits : wellFormed c i = true

/-- The nine bits of a corrected character are its value and its marker (rule R302). -/
theorem chr9_of_fields (b : BitVec 9) : chr9 (BitVec.extractLsb' 0 8 b) (b.getLsbD 8) = b := by
  apply BitVec.eq_of_getLsbD_eq
  intro i hi
  rw [chr9_bit]
  by_cases h : i < 8
  · simp [h]
  · obtain rfl : i = 8 := by omega
    simp

/-- The command codes of an admissible configuration are no other class's (rule R10). -/
theorem valid_command_codes {c : Config} {t : Byte} (hc : c.valid = true) (ht : t ∈ c.typeCommand) :
    t ≠ typeTest ∧ t ≠ c.typeStream ∧ t ≠ c.typeHeartbeat := by
  simp only [Config.valid, Bool.and_eq_true, List.all_eq_true, decide_eq_true_eq] at hc
  obtain ⟨-, hcommands⟩ := hc
  obtain ⟨⟨htest, hstream⟩, hheartbeat⟩ := hcommands t ht
  exact ⟨htest, hstream, hheartbeat⟩

/-- The class of a character is the class whose type code it is: no two classes share one (rules R10,
R325). -/
theorem typeOfChar_eq_some_iff {c : Config} {ch : Byte} {k : Bool} {p : Port} (hc : c.valid = true) :
    typeOfChar c ch k = some p ↔
      k = false ∧
        ((p = .test ∧ ch = typeTest) ∨ (p = .stream ∧ ch = c.typeStream) ∨
          (p = .heartbeat ∧ ch = c.typeHeartbeat) ∨ (p = .command ∧ ch ∈ c.typeCommand)) := by
  constructor
  · intro h
    unfold typeOfChar at h
    split_ifs at h with hk ht hs hh hmem <;> cases h <;> refine ⟨by simpa using hk, ?_⟩
    · exact .inl ⟨rfl, ht⟩
    · exact .inr (.inl ⟨rfl, hs⟩)
    · exact .inr (.inr (.inl ⟨rfl, hh⟩))
    · exact .inr (.inr (.inr ⟨rfl, by simpa using hmem⟩))
  · obtain ⟨hst, hht, hhs⟩ := Laws.RoundTrip.valid_types c hc
    rintro ⟨rfl, ⟨rfl, rfl⟩ | ⟨rfl, rfl⟩ | ⟨rfl, rfl⟩ | ⟨rfl, hmem⟩⟩
    · simp [typeOfChar]
    · simp [typeOfChar, hst]
    · simp [typeOfChar, hht, hhs]
    · obtain ⟨ht, hs, hh⟩ := valid_command_codes hc hmem
      simp [typeOfChar, ht, hs, hh, hmem]

@[simp] theorem rejectChar_ne_ok (b : BitVec 9) (i : Instr) : rejectChar b ≠ .ok i := by
  obtain ⟨e, he⟩ := rejectChar_error b
  simp [he]

/-- A code tested for at a place is that code's row, or is left to the tests after it. -/
theorem fixed_or_rest {n : Nat} {b x : BitVec n} {i j : Instr} {rest : Except Reject Instr}
    (h : (if b = x then .ok j else rest) = .ok i) : (b = x ∧ i = j) ∨ rest = .ok i := by
  split_ifs at h with hb
  · cases h; exact .inl ⟨hb, rfl⟩
  · exact .inr h

/-- A type row's character is its type byte with marker 0 (rule R325). -/
theorem codeOf_decodeType {c : Config} {b : BitVec 9} {i : Instr} (hc : c.valid = true)
    (h : decodeType c b = .ok i) : CodeOf c .typeIn (.dchar9 b) i := by
  unfold decodeType at h
  split at h
  case h_1 ht | h_2 ht | h_3 ht =>
    cases h
    have hb := chr9_of_fields b
    obtain ⟨hk, hclass⟩ := (typeOfChar_eq_some_iff hc).1 ht
    simp only [reduceCtorEq, true_and, false_and, or_false, false_or] at hclass
    rw [hk, hclass] at hb
    exact ⟨congrArg _ hb, rfl, rfl⟩
  case h_4 ht =>
    rcases fixed_or_rest h with ⟨rfl, rfl⟩ | h
    · exact ⟨rfl, rfl, beq_iff_eq.2 ht⟩
    rcases fixed_or_rest h with ⟨rfl, rfl⟩ | h
    · exact ⟨rfl, rfl, beq_iff_eq.2 ht⟩
    cases h
  case h_5 => cases h

theorem codeOf_decodeSequence {c : Config} {b : BitVec 54} {i : Instr}
    (h : decodeSequence b = .ok i) : CodeOf c .triggerOut (.char9x6 b) i := by
  unfold decodeSequence at h
  dsimp only at h
  split_ifs at h with hnormal hlinktrig <;> cases h
  · exact ⟨congrArg _ hnormal.symm, rfl, rfl⟩
  · exact ⟨congrArg _ hlinktrig.symm, rfl, rfl⟩

theorem codeOf_decodeOperation (c : Config) (op : Operation) :
    CodeOf c .block (.operation op) (decodeOperation op) := by
  cases op <;> exact ⟨rfl, rfl, rfl⟩

/-- What is read at a place is a row of that place with exactly the bits that were read. The cases are the
decoder's arms in their order. -/
theorem codeOf_decode {c : Config} {p : Place} {code : Code} {i : Instr} (hc : c.valid = true)
    (hp : p ≠ .hostPort) (h : decode c p code = .ok i) : CodeOf c p code i := by
  unfold decode at h
  split at h
  case h_1 => exact codeOf_decodeSequence h
  case h_2 | h_4 | h_9 | h_13 => -- two fixed codes: ack words, frame words, trigger indicators, markers
    rcases fixed_or_rest h with ⟨rfl, rfl⟩ | h
    · exact ⟨rfl, rfl, rfl⟩
    rcases fixed_or_rest h with ⟨rfl, rfl⟩ | h
    · exact ⟨rfl, rfl, rfl⟩
    simp at h
  case h_3 | h_6 | h_10 | h_11 => -- one fixed code: idle word, test type word, ack marker, ack data
    rcases fixed_or_rest h with ⟨rfl, rfl⟩ | h
    · exact ⟨rfl, rfl, rfl⟩
    simp at h
  case h_5 b => -- a trailer's data is any, its markers are fixed
    split_ifs at h with hmarks
    cases h
    exact ⟨congrArg _ (hmarks ▸ word36_of_fields b), rfl, rfl⟩
  case h_7 => -- a type word is four copies of its byte
    dsimp only at h
    split_ifs at h with hbits hwf
    cases h
    exact ⟨congrArg _ hbits.symm, rfl, hwf⟩
  case h_8 => -- the test pattern's counter is the place's
    split_ifs at h with hpat
    obtain ⟨rfl, hwf⟩ := hpat
    cases h
    exact ⟨rfl, rfl, hwf⟩
  case h_12 b => -- an idle word keeps all its bits
    split_ifs at h with hidle
    cases h
    exact ⟨congrArg _ (word36_of_fields b), rfl, hidle⟩
  case h_14 => exact codeOf_decodeType hc h
  case h_15 => exact absurd rfl hp
  case h_16 op => cases h; exact codeOf_decodeOperation c op
  case h_17 => cases h

/-- Settles O34, by the decoder's arms. -/
theorem decodedBitsAreTheCode : Obligations.DecodedBitsAreTheCode :=
  fun _ _ _ _ hc h hp =>
    have hcode := codeOf_decode hc hp h
    ⟨hcode.bits, hcode.stands, hcode.admits⟩

end Sys2Proof.Machine

/-!
Type words at the classifier (rules R325, R528).
-/
namespace Sys2Proof.Machine

section TypeWord
variable {s : State} {w : DWord} {p : Port}

theorem classOf_of_typeOf {c : Config} (hidle : isIdle w = false) (hp : typeOf c w = some p) :
    classOf w = .other := by
  simp [classOf, hidle, isStart_of_typeOf hp, isEnd_of_typeOf hp]

/-- Only in PAYLOAD can the classifier stall (rule R522). -/
theorem rdyCls_outside_payload (hst : s.cls.st ≠ .payload) : rdyCls s = true :=
  Bool.eq_true_of_not_eq_false fun hr =>
    have ⟨hpayload, _⟩ := rdyCls_eq_false_iff.1 hr
    hst hpayload

/-- The tick in which a word of a known type stands in the type position (rule R528). -/
theorem tick_typeWord (hs : runs s) (hst : s.cls.st = .type) (hw : rxArd s = some w)
    (hidle : isIdle w = false) (hp : typeOf s.cfg w = some p) :
    (tick s).cls = { s.cls with port := p, hv := false, st := .payload } ∧
      (tick s).out.decodeError = false ∧ ∀ q, rxPort s q = none := by
  have hoff : s.cls.st ≠ .payload := by simp [hst]
  have htaken : clsTaken s = some w := clsTaken_of_ready hw (rdyCls_outside_payload hoff)
  refine ⟨?selects, ?error, fun q => ?emits⟩
  case selects => rw [tick_cls s hs.2, htaken, clsNext_type_known hst hidle hp]
  case error =>
    rw [tick_decodeError, htaken]
    refine (framingBad_type hst hidle).trans ?_
    simp [isStart_of_typeOf hp, isEnd_of_typeOf hp, hp]
  case emits => simp [rxPort, clsEmit_outside_payload hoff]

end TypeWord

/-- Settles O9: each of the five rows takes place on its type byte, and its tick selects the class's port. -/
theorem typeWordSelectsPort : Obligations.TypeWordSelectsPort := by
  intro i p w s hs hst hw hidle hk hrow
  have htype : typeOf s.cfg w = some p := by
    refine (typeOfChar_eq_some_iff hs.1).2 ⟨hk, ?_⟩
    rcases hrow with ⟨-, rfl, hch⟩ | ⟨-, rfl, hch⟩ | ⟨-, rfl, hch⟩ | ⟨-, rfl, hch, hmem⟩ |
      ⟨-, rfl, hch, hmem⟩
    · simp [hch, typeTest]
    · simp [hch]
    · simp [hch]
    · simp [hch, hmem]
    · simp [hch, hmem]
  have hother : classOf w = .other := classOf_of_typeOf hidle htype
  have hoccurs : occurs i s = true := by
    rcases hrow with ⟨rfl, rfl, -⟩ | ⟨rfl, rfl, -⟩ | ⟨rfl, rfl, -⟩ | ⟨rfl, rfl, hch, -⟩ |
      ⟨rfl, rfl, hch, -⟩
    case inl | inr.inl | inr.inr.inl =>
      simp [occurs, receivesType, hst, clsSees_eq hw, hother, htype]
    case inr.inr.inr.inl | inr.inr.inr.inr =>
      simp [occurs, receivesCommand, hst, clsSees_eq hw, hother, htype, hch]
  exact ⟨tick s, exec_of_occurs hs.1 hoccurs, tick_typeWord hs hst hw hidle htype⟩

end Sys2Proof.Machine

/-!
Table words (log entry 5): what they decode to, and that a placed one is the row the next step fetches.
-/
namespace Sys2Proof.Machine

/-! ### The rows of table words (rules R300 to R303, R308 to R325) -/

/-- Settles O32: each word is evaluated, at the first place where it is a row. -/
theorem knownWordsDecode : Obligations.KnownWordsDecode :=
  ⟨rfl, rfl, rfl, rfl, rfl, rfl, rfl, rfl, rfl, rfl, rfl, rfl, rfl⟩

theorem examples_valid : Config.examples.valid = true := rfl

theorem decodeFirst_ok {c : Config} {code : Code} {ps : List Place} {i : Instr}
    (h : decodeFirst c code ps = some i) : ∃ p ∈ ps, decode c p code = .ok i := by
  induction ps with
  | nil => cases h
  | cons p ps ih =>
    unfold decodeFirst at h
    split at h
    next hi => cases h; exact ⟨p, List.mem_cons_self, hi⟩
    next =>
      obtain ⟨q, hq, hi⟩ := ih h
      exact ⟨q, List.mem_cons_of_mem p hq, hi⟩

/-- The places at which a row has bits: all but the host port and the block operations (rule R303). -/
def hasBits (p : Place) : Prop := p ≠ .hostPort ∧ p ≠ .block

theorem hasBits_of_mem_charPlaces : ∀ p ∈ charPlaces, hasBits p := by
  simp [charPlaces, hasBits]

theorem hasBits_of_mem_wordPlaces (b : BitVec 36) : ∀ p ∈ wordPlaces b, hasBits p := by
  simp [wordPlaces, hasBits]

theorem hasBits_triggerOut : ∀ p ∈ [Place.triggerOut], hasBits p := by
  simp [hasBits]

/-- A table word is read at a place whose rows have bits. -/
theorem decodeTableWord_place {nbits w : Nat} {i : Instr} (h : decodeTableWord nbits w = some i) :
    ∃ p code, hasBits p ∧ decode Config.examples p code = .ok i := by
  have found {code : Code} {ps : List Place} (hps : ∀ p ∈ ps, hasBits p)
      (h : decodeFirst Config.examples code ps = some i) :
      ∃ p code, hasBits p ∧ decode Config.examples p code = .ok i := by
    obtain ⟨p, hp, hi⟩ := decodeFirst_ok h
    exact ⟨p, code, hps p hp, hi⟩
  unfold decodeTableWord at h
  split_ifs at h
  · exact found hasBits_of_mem_charPlaces h
  · exact found (hasBits_of_mem_wordPlaces _) h
  · exact found hasBits_triggerOut h

/-- A table word is a row with bits that the examples' configuration admits. -/
theorem decodeTableWord_admits {nbits w : Nat} {i : Instr} (h : decodeTableWord nbits w = some i) :
    hasBits (placeOf i) ∧ wellFormed Config.examples i = true := by
  obtain ⟨p, code, hp, hi⟩ := decodeTableWord_place h
  have hcode := codeOf_decode examples_valid hp.1 hi
  exact ⟨hcode.stands ▸ hp, hcode.admits⟩

/-! ### Received rows: a word held in the decoder's second stage (rule R405) -/

section Held
variable {s : State}

@[simp] theorem voteChar_rep4 (c : Byte) : voteChar (rep4 c) = c := by
  obtain ⟨h0, h1, h2, h3⟩ := lane_word4 c c c c
  simp [voteChar, orData, dataTerms, rep4, h0, h1, h2, h3]

/-- Four copies of a character with one marker, as the blocks after the decoder see them (rule R402). -/
def heldChar (c : Byte) (k : Bool) : DWord := ⟨rep4 c, if k then allMarks else noMarks, c, k⟩

theorem voted_rep4 (c : Byte) (k : Bool) :
    voted ⟨rep4 c, if k then allMarks else noMarks⟩ = heldChar c k := by
  have hk : voteMark (if k then allMarks else noMarks) = k := by cases k <;> decide
  simp [voted, heldChar, hk]

/-- A held word is what the next fetch reads. -/
theorem fetch_holdWord (s : State) (w : RawWord) :
    fetch (holdWord s w) = fetchReceived (holdWord s w) (voted w) := rfl

theorem fetch_holdChar (s : State) (c : Byte) (k : Bool) :
    fetch (holdChar s c k) = fetchReceived (holdChar s c k) (heldChar c k) := by
  rw [← voted_rep4]; rfl

/-- A word that neither reader takes is read at the classifier (rules R470, R485). -/
theorem fetchReceived_past_readers {w : DWord} (htrd : s.trd.st = .copy) (hard : s.ard.st = .copy)
    (htrig : isTrig w = false) (hack : isIoack w = false) : fetchReceived s w = fetchClassified s w := by
  rw [isTrig_eq_false_iff] at htrig
  rw [isIoack_eq_false_iff] at hack
  rw [fetchReceived_copy htrd, fetchAck_copy hard, if_neg, if_neg, if_neg]
  · exact fun ⟨hch, hk⟩ => hack hk hch
  · exact fun ⟨hch, hk⟩ => (htrig hk).2 hch
  · exact fun ⟨hch, hk⟩ => (htrig hk).1 hch

/-- Four copies of a character are an idle word only of the comma with its marker (rule R324). -/
theorem isIdle_heldChar (c : Byte) (k : Bool) : isIdle (heldChar c k) = (k && c == idleComma) := by
  cases k <;> simp [isIdle, isIdleRaw, heldChar, allMarks, noMarks]

theorem fetchType_of_ok {w : DWord} {i : Instr} (h : decodeType s.cfg (dchar9 w) = .ok i) :
    fetchType s w = i := by
  simp [fetchType, h]

/-- A held data character passes both readers and is no idle word and no marker: in the type position it is
read as a type row (rules R325, R528). -/
theorem fetch_typeChar {c : Byte} {i : Instr} (h : decodeType s.cfg (chr9 c false) = .ok i) :
    fetch (holdChar (atType s) c false) = i := by
  have hidle : isIdle (heldChar c false) = false := isIdle_heldChar c false
  rw [fetch_holdChar, fetchReceived_past_readers rfl rfl rfl rfl, fetchClassified_eq, hidle]
  exact fetchType_of_ok h

/-- An idle word that no reader takes is the classifier's (rule R526). -/
theorem fetch_idleWord {w : RawWord} (hidle : isIdleRaw w.data w.k = true) (hmark : voteMark w.k = false) :
    fetch (holdWord (openReaders s) w) = .rxIdle w := by
  have hclass : isIdle (voted w) = true := hidle
  rw [fetch_holdWord, fetchReceived_past_readers rfl rfl (by simp [isTrig, voted, hmark])
    (by simp [isIoack, voted, hmark]), fetchClassified_eq, if_pos hclass]
  rfl

end Held

/-! ### Emitted rows: what the transmit side offers behind a quiet front (rule R683) -/

section Offered
variable {s : State}

/-- The first code offered is the row fetched when nothing is received and no host signal is driven. -/
theorem fetch_quietFront {p : Place} {code : Code} {i : Instr} (hrx : rxDcd s = none)
    (hhost : hostActs s.inp.host = false) (hvalid : s.inp.rxValid = false)
    (ho : offeredCode s = some (p, code)) (hi : decode s.cfg p code = .ok i) : fetch s = i := by
  simp [fetch, hrx, hhost, hvalid, fetchOffered, ho, hi]

/-- The rows of codes that the core emits (rules R308 to R314, R424). -/
def emitted : Instr → Bool
  | .startWord | .endWord | .idleWord | .ioackWord | .ackDataWord | .typeTestWord | .typeWord _
  | .patWord _ | .crcTrailerWord _ | .trigSeqNormal _ | .trigSeqLinktrig _ => true
  | _ => false

/-- Bit reversal undoes itself (rules R13, R424). -/
theorem crcTrailer_rev32 (x : Data) : crcTrailer (rev32 x) = x := by simp [crcTrailer, rev32]

/-- A placed emitted row is what the transmit side offers first, at its place and with its code. -/
theorem offeredCode_place (i : Instr) (h : emitted i = true) :
    offeredCode (place s i) = some (placeOf i, encode s.cfg i) := by
  cases i with
  | startWord | endWord | idleWord | ioackWord | ackDataWord | typeTestWord | patWord | trigSeqNormal
    | trigSeqLinktrig => rfl
  | typeWord t =>
    have hword : bufWord (place s (.typeWord t)) 0 = rep4 t := by
      simp [bufWord, place, memRead_memWrite_same]
    have hoffers : offeredCode (place s (.typeWord t)) =
        some (.typeOut, .word36 (word36 (bufWord (place s (.typeWord t)) 0) noMarks)) := rfl
    rw [hoffers, hword]
    rfl
  | crcTrailerWord trailer =>
    have hoffers : offeredCode (place s (.crcTrailerWord trailer)) =
        some (.trailerOut, .word36 (word36 (crcTrailer (rev32 trailer)) noMarks)) := rfl
    rw [hoffers, crcTrailer_rev32]
    rfl
  | _ => cases h

/-- A placed emitted row stands behind a quiet front. -/
theorem place_quiet (i : Instr) (h : emitted i = true) :
    rxDcd (place s i) = none ∧ hostActs (place s i).inp.host = false ∧
      (place s i).inp.rxValid = false ∧ (place s i).cfg = s.cfg := by
  cases i with
  | startWord | endWord | idleWord | ioackWord | ackDataWord | typeTestWord | typeWord | patWord
    | crcTrailerWord | trigSeqNormal | trigSeqLinktrig => exact ⟨rfl, rfl, rfl, rfl⟩
  | _ => cases h

theorem fetch_place_emitted {i : Instr} (hc : s.cfg.valid = true) (hwf : wellFormed s.cfg i = true)
    (h : emitted i = true) : fetch (place s i) = i := by
  obtain ⟨hrx, hhost, hvalid, hcfg⟩ := place_quiet (s := s) i h
  refine fetch_quietFront hrx hhost hvalid (offeredCode_place i h) ?_
  rw [hcfg]
  exact decode_encode i s.cfg hc hwf

end Offered

/-! ### Placed rows -/

/-- A row with bits, once placed, is the row the next step fetches (log entry 5). -/
theorem fetch_place {s : State} {i : Instr} (hc : s.cfg.valid = true) (hwf : wellFormed s.cfg i = true)
    (hbits : hasBits (placeOf i)) (hidle : ∀ r, i = .rxIdle r → voteMark r.k = false) :
    fetch (place s i) = i := by
  cases i with
  | startWord | endWord | idleWord | ioackWord | ackDataWord | typeTestWord | typeWord | patWord
    | crcTrailerWord | trigSeqNormal | trigSeqLinktrig => exact fetch_place_emitted hc hwf rfl
  | rxIdle w => exact fetch_idleWord hwf (hidle w rfl)
  | rxStart | rxEnd =>
    rw [place, fetch_holdChar, fetchReceived_past_readers rfl rfl rfl rfl, fetchClassified_eq,
      isIdle_heldChar]
    rfl
  | rxTrig282 | rxTrig284 | rxIoack | rxAckdata =>
    rw [place, fetch_holdChar, fetchReceived_copy rfl]
    rfl
  | rxTypeTest | rxTypeStream | rxTypeHeartbeat | rxTypeCommand03 | rxTypeCommand06 =>
    exact fetch_typeChar (decode_encode _ s.cfg hc hwf)
  | _ => simp [hasBits, placeOf] at hbits

/-- Settles O31: a table word decodes to a row with bits, and such a row is fetched where it is placed. -/
theorem placedWordRuns : Obligations.PlacedWordRuns := by
  intro nbits w i s hcfg hi hidle
  obtain ⟨hbits, hwf⟩ := decodeTableWord_admits hi
  rw [← hcfg] at hwf
  have hplaced : s.withFetchWord nbits w = place s i := by
    simp [State.withFetchWord, placeTableWord, hi]
  have hfetch : fetch (place s i) = i := fetch_place (hcfg ▸ examples_valid) hwf hbits hidle
  rw [hplaced]
  exact ⟨hfetch, by rw [step, hfetch]⟩

end Sys2Proof.Machine

/-!
The duplicate-character decoder (rules R401 to R407): the vote bit by bit, and the two stages, tick by tick.
-/
namespace Sys2Proof.Machine

/-! ### The majority of four bits (rules R401 to R404) -/

section Majority
variable {a b c d v : Bool}

/-- One bit of the vote: the OR of the four 3-of-4 ANDs of the copies' bits (rules R401, R402). -/
def majBit (a b c d : Bool) : Bool := (a && b && c) || (a && b && d) || (a && c && d) || (b && c && d)

theorem majBit_eq_true_iff : majBit a b c d = true ↔ 3 ≤ a.toNat + b.toNat + c.toNat + d.toNat := by
  revert a b c d; decide

/-- Three equal copies carry the vote whatever the fourth (rule R404). -/
theorem majBit_of_three (h : (b = v ∧ c = v ∧ d = v) ∨ (a = v ∧ c = v ∧ d = v) ∨
    (a = v ∧ b = v ∧ d = v) ∨ (a = v ∧ b = v ∧ c = v)) : majBit a b c d = v := by
  revert a b c d v; decide

/-- One copy that differs changes nothing (rule R404). -/
theorem majBit_of_one_off {f : Nat → Bool}
    (h : ∀ i j, i < 4 → j < 4 → f i ≠ v → f j ≠ v → i = j) : majBit (f 0) (f 1) (f 2) (f 3) = v := by
  have hpair : ∀ i j, i < 4 → j < 4 → i ≠ j → f i = v ∨ f j = v := fun i j hi hj hij => by
    by_contra hno
    obtain ⟨hfi, hfj⟩ := not_or.1 hno
    exact hij (h i j hi hj hfi hfj)
  have h01 := hpair 0 1 (by decide) (by decide) (by decide)
  have h02 := hpair 0 2 (by decide) (by decide) (by decide)
  have h03 := hpair 0 3 (by decide) (by decide) (by decide)
  have h12 := hpair 1 2 (by decide) (by decide) (by decide)
  have h13 := hpair 1 3 (by decide) (by decide) (by decide)
  have h23 := hpair 2 3 (by decide) (by decide) (by decide)
  exact majBit_of_three (by tauto)

end Majority

/-! ### The vote of a word (rules R402, R403) -/

theorem voteChar_bit (x : Data) (j : Nat) : (voteChar x).getLsbD j =
    majBit ((lane x 0).getLsbD j) ((lane x 1).getLsbD j) ((lane x 2).getLsbD j) ((lane x 3).getLsbD j) := by
  simp [voteChar, orData, dataTerms, majBit]

theorem voteChar_eq_maj4 (x : Data) : voteChar x = maj4 (lane x 0) (lane x 1) (lane x 2) (lane x 3) := rfl

theorem voteMark_eq_majBit (k : Marks) : voteMark k = majBit k[0] k[1] k[2] k[3] := rfl

/-- Settles O47, by the majority at each bit. -/
theorem voteIsMajority : Obligations.VoteIsMajority := by
  refine ⟨fun w j _ => ?char, fun w => ?mark, fun w v h => ?oneOff⟩
  case char =>
    rw [show (voted w).dchar = voteChar w.data from rfl, voteChar_bit]
    exact majBit_eq_true_iff
  case mark =>
    rw [show (voted w).dcharK = voteMark w.k from rfl, voteMark_eq_majBit]
    exact majBit_eq_true_iff
  case oneOff =>
    refine BitVec.eq_of_getLsbD_eq fun j hj => (voteChar_bit w.data j).trans ?_
    exact majBit_of_one_off (f := fun i => (lane w.data i).getLsbD j) (h j hj)

/-! ### The two stages (rule R405) -/

section Stages
variable (b : Dcd) (valid : Bool) (w : RawWord)

/-- While the consumer is not ready both stages hold. -/
@[simp] theorem dcdNext_stalled : dcdNext b valid w false = b := rfl

@[simp] theorem dcdNext_ready : dcdNext b valid w true =
    { s1Valid := valid, s1Data := w.data, s1K := w.k, s1T := dataTerms w.data, s1Tk := markTerms w.k,
      s2Valid := b.s1Valid, s2Data := b.s1Data, s2K := b.s1K, s2Dchar := orData b.s1T,
      s2DcharK := orMarks b.s1Tk } := rfl

/-- Two ready ticks bring a word through both stages, whatever is offered behind it (rule R407). -/
theorem dcdOut_after_two (valid' : Bool) (w' : RawWord) :
    dcdOut (dcdNext (dcdNext b true w true) valid' w' true) = some (voted w) := rfl

end Stages

/-- Stage 1 holds the terms of its word, stage 2 the vote of its word (rules R401, R402, R405). -/
structure StagesVoted (b : Dcd) : Prop where
  terms : b.s1T = dataTerms b.s1Data
  markTerms : b.s1Tk = markTerms b.s1K
  vote : b.s2Dchar = voteChar b.s2Data
  markVote : b.s2DcharK = voteMark b.s2K

theorem stagesVoted_iff (s : State) : StagesVoted s.dcd ↔ LegalVotes s :=
  ⟨fun ⟨t, mt, v, mv⟩ => ⟨t, mt, v, mv⟩, fun ⟨t, mt, v, mv⟩ => ⟨t, mt, v, mv⟩⟩

theorem dcdReset_voted : StagesVoted dcdReset := by constructor <;> decide

theorem dcdNext_voted {b : Dcd} (hb : StagesVoted b) (valid : Bool) (w : RawWord) (outReady : Bool) :
    StagesVoted (dcdNext b valid w outReady) := by
  cases outReady with
  | false => rwa [dcdNext_stalled]
  | true =>
    rw [dcdNext_ready]
    exact
      { terms := rfl
        markTerms := rfl
        vote := congrArg orData hb.terms
        markVote := congrArg orMarks hb.markTerms }

theorem dcdOut_voted {b : Dcd} (hb : StagesVoted b) {w : DWord} (hw : dcdOut b = some w) :
    w = voted ⟨w.data, w.k⟩ := by
  unfold dcdOut at hw
  split at hw
  case isTrue => cases hw; simp [voted, hb.vote, hb.markVote]
  case isFalse => cases hw

/-! ### The decoder in the core -/

theorem driveRow_dcd (i : Instr) (s : State) : (driveRow i s).dcd = s.dcd := by rw [driveRow_eq_pins]

theorem driveRow_stagesVoted (i : Instr) (s : State) (hs : StagesVoted s.dcd) :
    StagesVoted (driveRow i s).dcd := by rwa [driveRow_dcd]

theorem tick_stagesVoted (s : State) (hs : StagesVoted s.dcd) : StagesVoted (tick s).dcd := by
  apply tick_blocks (P := fun t => StagesVoted t.dcd) s
  case hr => exact dcdReset_voted
  case hn => exact dcdNext_voted hs _ _ _

/-- Settles O41: no row touches the stages but by its tick, and both the decoder's step and its reset values
have the stages voted. -/
theorem stepKeepsVotes : Obligations.StepKeepsVotes := by
  intro s t hs h
  have ht : StagesVoted t.dcd :=
    kept driveRow_stagesVoted tick_stagesVoted s t ((stagesVoted_iff s).2 hs) h
  exact ⟨(stagesVoted_iff t).1 ht, fun w hw => dcdOut_voted ht hw⟩

theorem exec_decode {s : State} (w : RawWord) (hc : s.cfg.valid = true) :
    exec (.decode w) s = .next (tick (withRx s w)) := rowTick_takes (withRx s w) hc

theorem tick_rxTaken (s : State) : (tick s).out.rxTaken = (rdyDcd s && s.inp.rxValid) := by
  rw [tick_out]; rfl

/-- The decoder is ready when its consumer is (rule R405). -/
theorem rdyDcd_eq (s : State) : rdyDcd s = rdyTrd s := rfl

/-- A word offered on `rx_in` does not reach its readers in the same tick. -/
theorem rdyTrd_withRx (s : State) (w : RawWord) : rdyTrd (withRx s w) = rdyTrd s := rfl

/-- The decoder after the tick in which a word is offered. -/
theorem tick_dcd_withRx (s : State) (w : RawWord) (h : s.inp.rst = false) :
    (tick (withRx s w)).dcd = dcdNext s.dcd true w (rdyTrd s) := tick_dcd (withRx s w) h

/-- Settles O10, stalled and ready, with a word offered and without. -/
theorem decodeStep : Obligations.DecodeStep := by
  rintro w s ⟨hc, hrst⟩ after
  have hnext (valid : Bool) (x : RawWord) :
      dcdNext s.dcd valid x (rdyTrd s) = if rdyTrd s then after valid x else s.dcd := by
    cases rdyTrd s with
    | false => exact dcdNext_stalled s.dcd valid x
    | true => exact dcdNext_ready s.dcd valid x
  refine ⟨rfl, ⟨_, exec_decode w hc, ?_, ?_, ?_⟩, fun hv => ⟨_, step_eq_tick hc, ?_, ?_, ?_⟩⟩
  · rw [tick_rxReady, rdyDcd_eq, rdyTrd_withRx]
  · rw [tick_rxTaken, rdyDcd_eq, rdyTrd_withRx]
    exact Bool.and_true _
  · rw [tick_dcd_withRx s w hrst, hnext]
  · rw [tick_rxReady, rdyDcd_eq]
  · rw [tick_rxTaken, hv, Bool.and_false]
  · rw [tick_dcd s hrst, hv, hnext]

/-- Settles O11: the decoder takes two steps with its consumer ready. -/
theorem decodeLatency : Obligations.DecodeLatency := by
  rintro w s t u ⟨hc, hrst⟩ hready hexec htrst htready hstep
  obtain rfl : tick (withRx s w) = t := Host.Outcome.next.inj ((exec_decode w hc).symm.trans hexec)
  have hct : (tick (withRx s w)).cfg.valid = true := by rw [tick_cfg]; exact hc
  obtain rfl : tick (tick (withRx s w)) = u := Host.Outcome.next.inj ((step_eq_tick hct).symm.trans hstep)
  calc rxDcd (tick (tick (withRx s w)))
      = dcdOut (dcdNext (tick (withRx s w)).dcd _ _ true) := by rw [rxDcd, tick_dcd _ htrst, htready]
    _ = dcdOut (dcdNext (dcdNext s.dcd true w true) _ _ true) := by rw [tick_dcd_withRx s w hrst, hready]
    _ = some (voted w) := dcdOut_after_two s.dcd w _ _

end Sys2Proof.Machine

/-!
The CRC function (rules R420 to R426): the step in its reflected form, linear over XOR, one-to-one in the
register and in the word, and at zero exactly on the register's own trailer.
-/
namespace Sys2Proof.Machine

section CrcFunction
variable {r d : Data} {b : Bool}

/-! ### The bit reversal (rule R13) -/

@[simp] theorem rev32_rev32 (x : Data) : rev32 (rev32 x) = x := BitVec.reverse_reverse_eq

theorem rev32_injective : Function.Injective rev32 :=
  Function.LeftInverse.injective rev32_rev32

theorem rev32_bit (x : Data) (i : Nat) : (rev32 x).getLsbD i = x.getMsbD i := BitVec.getLsbD_reverse

/-- The reversal of an XOR, bit by bit. -/
theorem rev32_xor (x y : Data) : rev32 (x ^^^ y) = rev32 x ^^^ rev32 y := by
  refine BitVec.eq_of_getLsbD_eq fun i _ => ?_
  simp only [BitVec.getLsbD_xor, rev32_bit, BitVec.getMsbD_xor]

/-- A register that shifts towards bit 31 is, reversed, one that shifts towards bit 0 (rule R422). -/
theorem rev32_shiftLeft_one (x : Data) : rev32 (x <<< 1) = rev32 x >>> 1 := by
  refine BitVec.eq_of_getLsbD_eq fun i hi => ?_
  rw [rev32_bit, BitVec.getMsbD_shiftLeft, BitVec.getLsbD_ushiftRight, rev32_bit, Nat.add_comm]

/-- The two forms of the polynomial (rule R422). -/
theorem rev32_crcPoly : rev32 crcPoly = 0xEDB88320#32 := by
  have hbits : ∀ i < 32, crcPoly.getMsbD i = (0xEDB88320#32).getLsbD i := by decide
  exact BitVec.eq_of_getLsbD_eq fun i hi => (rev32_bit crcPoly i).trans (hbits i hi)

/-! ### One bit (rules R421, R422) -/

theorem rev32_crcBit (r : Data) (b : Bool) : rev32 (crcBit r b) = reflBit (rev32 r) b := by
  have hmsb : (rev32 r).getLsbD 0 = r.msb := rev32_bit r 0
  have hzero : rev32 0#32 = 0#32 := by simpa using rev32_xor 0#32 0#32
  rw [crcBit, reflBit, rev32_xor, rev32_shiftLeft_one, hmsb]
  cases r.msb ^^ b
  · rw [if_neg Bool.false_ne_true, if_neg Bool.false_ne_true, hzero]
  · rw [if_pos rfl, if_pos rfl, rev32_crcPoly]

/-- The feedback of an XOR is the XOR of the feedbacks. -/
theorem crcBit_xor (r r' : Data) (b b' : Bool) :
    crcBit (r ^^^ r') (b ^^ b') = crcBit r b ^^^ crcBit r' b' := by
  have hfeed : ((r ^^^ r').msb ^^ (b ^^ b')) = ((r.msb ^^ b) ^^ (r'.msb ^^ b')) := by
    rw [BitVec.msb_xor, Bool.xor_assoc, Bool.xor_assoc, Bool.xor_left_comm r'.msb]
  have hpoly (x y : Bool) : (if x ^^ y then crcPoly else 0#32) =
      (if x then crcPoly else 0#32) ^^^ (if y then crcPoly else 0#32) := by
    cases x <;> cases y <;> decide
  rw [crcBit, crcBit, crcBit, BitVec.shiftLeft_xor_distrib, hfeed, hpoly]
  ac_rfl

/-- A bit that equals the one shifted out feeds nothing back. -/
theorem crcBit_msb (h : r.msb = b) : crcBit r b = r <<< 1 := by
  simp [crcBit, h]

/-- CRC_POLY has bit 0, so the new bit 0 is the feedback (rule R421). -/
theorem crcBit_low (r : Data) (b : Bool) : (crcBit r b).getLsbD 0 = (r.msb ^^ b) := by
  cases h : r.msb ^^ b <;> simp [crcBit, h, crcPoly]

theorem crcBit_injective (b : Bool) : Function.Injective (crcBit · b) := by
  intro r r' (h : crcBit r b = crcBit r' b)
  have hmsb : r.msb = r'.msb := by
    have hlow : (r.msb ^^ b) = (r'.msb ^^ b) := by rw [← crcBit_low, h, crcBit_low]
    exact Bool.xor_left_inj.1 hlow
  have hshift : r <<< 1 = r' <<< 1 := by
    rw [crcBit, crcBit, hmsb] at h
    exact (BitVec.xor_left_inj _).1 h
  refine BitVec.eq_of_getLsbD_eq fun i hi => ?_
  by_cases hlast : i = 31
  · rw [hlast]; exact hmsb
  · have hin : i + 1 < 32 := by omega
    have hbit (x : Data) : (x <<< 1).getLsbD (i + 1) = x.getLsbD i := by
      rw [BitVec.getLsbD_shiftLeft]; simp [hin]
    rw [← hbit r, hshift, hbit r']

/-! ### One word (rules R421, R422, R425) -/

theorem crcBits_xor (r r' d d' : Data) (n : Nat) :
    crcBits (r ^^^ r') (d ^^^ d') n = crcBits r d n ^^^ crcBits r' d' n := by
  induction n with
  | zero => rfl
  | succ n ih => rw [crcBits, ih, BitVec.getLsbD_xor, crcBit_xor]; rfl

theorem crcBits_injective (d : Data) (n : Nat) : Function.Injective (crcBits · d n) := by
  induction n with
  | zero => exact Function.injective_id
  | succ n ih => exact (crcBit_injective _).comp ih

/-- Fed its own bits from the top, the register only shifts (rule R425). -/
theorem crcBits_rev32 (r : Data) (n : Nat) : crcBits r (rev32 r) n = r <<< n := by
  induction n with
  | zero => exact (BitVec.shiftLeft_zero r).symm
  | succ n ih =>
    rw [crcBits, ih, crcBit_msb (by rw [BitVec.msb_shiftLeft, rev32_bit]), BitVec.shiftLeft_add]

theorem rev32_crcBits (r d : Data) (n : Nat) : rev32 (crcBits r d n) = reflBits (rev32 r) d n := by
  induction n with
  | zero => rfl
  | succ n ih => rw [crcBits, rev32_crcBit, ih]; rfl

theorem crcStep_rev32 (r : Data) : crcStep r (rev32 r) = 0#32 := by
  rw [crcStep, crcBits_rev32]
  exact BitVec.shiftLeft_eq_zero (Nat.le_refl 32)

theorem crcStep_injective_register (d : Data) : Function.Injective (crcStep · d) := crcBits_injective d 32

/-- A word enters the register as its reversal does before 32 zero bits. -/
theorem crcStep_eq_zeros (r d : Data) : crcStep r d = crcStep (r ^^^ rev32 d) 0#32 := by
  have hown : crcStep (rev32 d) d = 0#32 := by simpa using crcStep_rev32 (rev32 d)
  calc crcStep r d = crcStep r d ^^^ crcStep (rev32 d) d := by rw [hown, BitVec.xor_zero]
    _ = crcStep (r ^^^ rev32 d) (d ^^^ d) := (crcBits_xor r (rev32 d) d d 32).symm
    _ = crcStep (r ^^^ rev32 d) 0#32 := by rw [BitVec.xor_self]

theorem crcStep_injective_word (r : Data) : Function.Injective (crcStep r) := by
  intro d d' h
  rw [crcStep_eq_zeros r d, crcStep_eq_zeros r d'] at h
  exact rev32_injective ((BitVec.xor_right_inj r).1 (crcStep_injective_register 0#32 h))

/-- Only the trailer of its register brings a register to zero (rules R424, R425). -/
theorem crcStep_eq_zero_iff : crcStep r d = 0#32 ↔ d = rev32 r := by
  constructor
  · intro h
    exact crcStep_injective_word r (h.trans (crcStep_rev32 r).symm)
  · rintro rfl
    exact crcStep_rev32 r

/-! ### A sequence of words (rules R423, R426) -/

theorem crcFold_injective (p : List Data) : Function.Injective (p.foldl crcStep ·) := by
  induction p with
  | nil => exact Function.injective_id
  | cons d p ih => exact ih.comp (crcStep_injective_register d)

/-- A changed word changes the register at the end, from whatever register it starts. -/
theorem crcFold_set_ne {p : List Data} {j : Nat} (h : j < p.length) {v : Data} (hv : v ≠ p[j]) (r : Data) :
    (p.set j v).foldl crcStep r ≠ p.foldl crcStep r := by
  induction p generalizing j r with
  | nil => cases h
  | cons d p ih =>
    cases j with
    | zero =>
      intro heq
      exact hv (crcStep_injective_word r (crcFold_injective p heq))
    | succ j => exact ih (Nat.lt_of_succ_lt_succ h) hv (crcStep r d)

/-- A flipped bit changes the word. -/
theorem flipped_ne {n : Nat} (hn : n < 32) (x : Data) : x ^^^ (1#32 <<< n) ≠ x := by
  intro h
  have hbit := congrArg (fun y : Data => y.getLsbD n) h
  simp [hn] at hbit

end CrcFunction

/-- Settles O48: the bits of the trailer are the bits the register shifts out, so nothing is fed back. -/
theorem crcResidueIsZero : Obligations.CrcResidueIsZero := fun p => crcStep_rev32 (crcSeq p)

/-- Settles O49: zero means that the trailer is the one of the register before it, and a flipped bit changes
either the trailer or, as every step is one-to-one, that register. -/
theorem crcDetectsOneFlippedBit : Obligations.CrcDetectsOneFlippedBit := by
  intro p n hn
  refine ⟨fun h => ?trailer, fun j hj h => ?payload⟩
  case trailer => exact flipped_ne hn _ (crcStep_eq_zero_iff.1 h)
  case payload =>
    have hsame := rev32_injective (crcStep_eq_zero_iff.1 h)
    exact crcFold_set_ne hj (flipped_ne hn _) crcSeed hsame.symm

/-- Settles O50, by the reversal of one bit's step at each of the 32 bits. -/
theorem reflectedCrcAgrees : Obligations.ReflectedCrcAgrees := by
  refine ⟨fun x i hi => ?reversal, fun r d => ?step⟩
  case reversal => rw [rev32_bit, BitVec.getMsbD_eq_getLsbD]; simp [hi]
  case step => rw [← rev32_crcBits, rev32_rev32]; rfl

end Sys2Proof.Machine

/-!
The receive CRC checkers (rules R427, R428, R431): one word at a time, in the core's tick, and over a whole
packet.
-/
namespace Sys2Proof.Machine

/-! ### One word (rules R427, R428) -/

section Checker
variable {b : Chk} {w : Word}

@[simp] theorem chkOut_none (b : Chk) : chkOut b none = none := rfl

@[simp] theorem chkOut_some (b : Chk) (w : Word) :
    chkOut b (some w) = if b.hv then some ⟨b.hData, b.hK, w.eop⟩ else none := rfl

@[simp] theorem chkError_none (b : Chk) : chkError b none = false := rfl

theorem chkNext_word (h : w.eop = false) :
    chkNext b (some w) = ⟨crcStep b.crc w.data, true, w.data, w.k⟩ := by
  simp [chkNext, h]

theorem chkNext_trailer (h : w.eop = true) :
    chkNext b (some w) = { b with crc := crcSeed, hv := false } := by
  simp [chkNext, h]

theorem chkError_word (h : w.eop = false) : chkError b (some w) = false := by
  simp [chkError, h]

theorem chkError_trailer (h : w.eop = true) :
    chkError b (some w) = decide (crcStep b.crc w.data ≠ 0#32) := by
  simp [chkError, h, crcBad, crcCheckValue, bne, Bool.beq_eq_decide_eq]

end Checker

/-! ### The checkers in the core (rules R428, R682) -/

section CheckerTick
variable (p : CrcPort) (s : State)

theorem chkForwards_eq : chkForwards s p = chkOut (chkOf s p) (chkInput s p) := by cases p <;> rfl

theorem occurs_crcCheck : occurs (.crcCheck p) s = (chkInput s p).isSome := by cases p <;> rfl

theorem tick_chkOf (h : s.inp.rst = false) :
    chkOf (tick s) p = chkNext (chkOf s p) (chkInput s p) := by
  cases p
  case heartbeat => exact tick_chkHb s h
  case command => exact tick_chkCmd s h

theorem tick_chkPulse : chkPulse (tick s).out p = chkError (chkOf s p) (chkInput s p) := by
  rw [tick_out]; cases p <;> rfl

end CheckerTick

/-- Settles O16: each checker's tick is its step on the word of its port. -/
theorem crcCheckStep : Obligations.CrcCheckStep := by
  refine ⟨fun p s hs hin => ?quiet, fun p w s hs hin => ?word⟩
  case quiet =>
    refine ⟨by rw [chkForwards_eq, hin, chkOut_none], tick s, step_eq_tick hs.1, ?_, ?_⟩
    · rw [tick_chkOf p s hs.2, hin, chkNext_none]
    · rw [tick_chkPulse, hin, chkError_none]
  case word =>
    have hoccurs : occurs (.crcCheck p) s = true := by rw [occurs_crcCheck, hin]; rfl
    refine ⟨tick s, exec_of_occurs hs.1 hoccurs, by rw [chkForwards_eq, hin, chkOut_some], ?_⟩
    rw [tick_chkOf p s hs.2, tick_chkPulse, hin]
    exact ⟨fun h => ⟨chkNext_word h, chkError_word h⟩, fun h => ⟨chkNext_trailer h, chkError_trailer h⟩⟩

/-! ### A whole packet (rule R431) -/

/-- The word a checker holds, as the beginning of what it has yet to forward. -/
def chkHeld (b : Chk) : List (Data × Marks) := if b.hv then [(b.hData, b.hK)] else []

theorem chkFeed_cons (b : Chk) (w : Word) (ws : List Word) :
    chkFeed b (w :: ws) =
      ((chkFeed (chkNext b (some w)) ws).1,
        (chkOut b (some w)).toList ++ (chkFeed (chkNext b (some w)) ws).2.1,
        chkError b (some w) :: (chkFeed (chkNext b (some w)) ws).2.2) := rfl

/-- What is forwarded with a word is the held one. -/
theorem chkOut_toList (b : Chk) (w : Word) :
    (chkOut b (some w)).toList = (chkHeld b).map fun v => ⟨v.1, v.2, w.eop⟩ := by
  cases h : b.hv <;> simp [chkHeld, h]

/-- The words without `eop` are forwarded one word late, and the trailer sends the last of them on. -/
theorem chkFeed_packet (ws : List (Data × Marks)) (x : Data × Marks) (b : Chk) :
    (chkFeed b (asPacket (ws ++ [x]))).2 =
      (asPacket (chkHeld b ++ ws),
        List.replicate ws.length false ++
          [decide (crcStep ((ws.map (·.1)).foldl crcStep b.crc) x.1 ≠ 0#32)]) ∧
    (chkFeed b (asPacket (ws ++ [x]))).1.hv = false ∧
    (chkFeed b (asPacket (ws ++ [x]))).1.crc = crcSeed := by
  rw [asPacket_snoc]
  induction ws generalizing b with
  | nil =>
    rw [List.map_nil, List.nil_append, chkFeed_cons, chkNext_trailer rfl, chkError_trailer rfl,
      chkOut_toList]
    refine ⟨?_, rfl, rfl⟩
    cases h : b.hv <;> simp [chkFeed, chkHeld, h, asPacket]
  | cons w ws ih =>
    rw [List.map_cons, List.cons_append, chkFeed_cons, chkNext_word rfl, chkError_word rfl,
      chkOut_toList]
    obtain ⟨hout, hstate⟩ := ih ⟨crcStep b.crc w.1, true, w.1, w.2⟩
    refine ⟨?_, hstate⟩
    rw [hout]
    cases h : b.hv <;> simp [chkHeld, h, asPacket, List.replicate_succ]

/-- Settles O52: a checker before a packet holds no word and has its register at the seed. -/
theorem crcCheckerOnAPacket : Obligations.CrcCheckerOnAPacket := by
  intro b ws x hhv hcrc
  have hheld : chkHeld b = [] := by simp [chkHeld, hhv]
  have hpacket := chkFeed_packet ws x b
  rwa [hheld, hcrc] at hpacket

end Sys2Proof.Machine

/-!
The transmit CRC inserter (rules R424, R429, R430): its four states, its tick, and a whole packet.
-/
namespace Sys2Proof.Machine

/-! ### The four states (rule R429) -/

section Inserter
variable {b : Cin} {w : WWord} {inp : Option WWord}

@[simp] theorem cinNext_stalled (b : Cin) (inp : Option WWord) : cinNext b inp false = b := by
  unfold cinNext; split <;> simp_all

theorem cinNext_none (hst : b.st ≠ .trailer) (r : Bool) : cinNext b none r = b := by
  unfold cinNext; split <;> simp_all

theorem cinNext_first (hst : b.st = .first) :
    cinNext b (some w) true =
      { crc := crcSeed
        st := if w.crcEn then (if w.eop then .trailer else .body)
              else (if w.eop then .first else .bypass) } := by
  simp [cinNext, hst]

theorem cinNext_body (hst : b.st = .body) :
    cinNext b (some w) true =
      { crc := crcStep b.crc w.data, st := if w.eop then .trailer else .body } := by
  simp [cinNext, hst]

theorem cinNext_bypass (hst : b.st = .bypass) :
    cinNext b (some w) true = { b with st := if w.eop then .first else .bypass } := by
  simp [cinNext, hst]

theorem cinNext_trailer (hst : b.st = .trailer) : cinNext b inp true = ⟨.first, crcSeed⟩ := by
  simp [cinNext, hst]

theorem cinOut_none (hst : b.st ≠ .trailer) : cinOut b none = none := by
  cases h : b.st <;> simp_all [cinOut]

theorem cinOut_first (hst : b.st = .first) :
    cinOut b (some w) = some ⟨w.data, w.k, w.eop && !w.crcEn⟩ := by
  simp [cinOut, hst]

theorem cinOut_body (hst : b.st = .body) : cinOut b (some w) = some ⟨w.data, w.k, false⟩ := by
  simp [cinOut, hst]

theorem cinOut_bypass (hst : b.st = .bypass) : cinOut b (some w) = some ⟨w.data, w.k, w.eop⟩ := by
  simp [cinOut, hst]

theorem cinOut_trailer (hst : b.st = .trailer) : cinOut b inp = some ⟨rev32 b.crc, noMarks, true⟩ := by
  simp [cinOut, hst, crcTrailer]

/-- But for TRAILER the inserter is ready when its consumer is. -/
theorem cinInReady_eq (hst : b.st ≠ .trailer) (r : Bool) : cinInReady b r = r := by
  cases h : b.st <;> simp_all [cinInReady]

theorem cinInReady_trailer (hst : b.st = .trailer) (r : Bool) : cinInReady b r = false := by
  simp [cinInReady, hst]

@[simp] theorem cinInReady_stalled (b : Cin) : cinInReady b false = false := by
  cases h : b.st <;> simp [cinInReady, h]

end Inserter

/-! ### The inserter and the framer behind it (rules R429, R503, R682) -/

section InserterTick
variable {s : State} {w : WWord}

/-- Only in COPY does the framer take words (rules R501 to R504). -/
theorem rdyFrm_eq_true_iff : rdyFrm s = true ↔ s.frm = .copy ∧ rdyIdl s = true := by
  cases h : s.frm <;> simp [rdyFrm, frmInReady, h]

/-- The framer goes on to the footer with a taken word that has `eop` (rule R503). -/
theorem frmNext_copy_some (w : Word) (r : Bool) :
    frmNext .copy (some w) r = if r && w.eop then .insertFooter else .copy := rfl

/-- The tick of a word offered to an inserter that passes words. -/
theorem tick_cin_word (hrst : s.inp.rst = false) (hst : s.cin.st ≠ .trailer) (hin : txWrt s = some w) :
    txCin s = cinOut s.cin (some w) ∧ rdyCin s = rdyFrm s ∧
      (rdyFrm s = true → (tick s).cin = cinNext s.cin (some w) true) :=
  ⟨by rw [txCin, hin], cinInReady_eq hst _, fun hr => by rw [tick_cin s hrst, hin, hr]⟩

/-- The tick of an accepted trailer word: the inserter stands before the next packet, the framer at the
footer. -/
theorem tick_trailer_taken (hrst : s.inp.rst = false) (hst : s.cin.st = .trailer)
    (hr : rdyFrm s = true) : (tick s).cin = ⟨.first, crcSeed⟩ ∧ (tick s).frm = .insertFooter := by
  obtain ⟨hfrm, hidl⟩ := rdyFrm_eq_true_iff.1 hr
  have hcin : txCin s = some ⟨rev32 s.cin.crc, noMarks, true⟩ := cinOut_trailer hst
  rw [tick_cin s hrst, tick_frm s hrst, hr, hfrm, hidl, hcin, frmNext_copy_some]
  exact ⟨cinNext_trailer hst, rfl⟩

end InserterTick

/-- Settles O5: the trailer offered is the row's own word, whether or not the framer takes it. -/
theorem trailerWordStep : Obligations.TrailerWordStep := by
  intro s ⟨hc, hrst⟩ hst
  have hoccurs : occurs (.crcTrailerWord s.cin.crc.reverse) s = true := by
    simp [occurs, emitsTrailer, crcTrailer, rev32, hst]
  refine ⟨cinOut_trailer hst, cinInReady_trailer hst _, tick s, exec_of_occurs hc hoccurs, ?_,
    fun hr => (tick_trailer_taken hrst hst hr).2⟩
  cases hr : rdyFrm s with
  | true => exact (tick_trailer_taken hrst hst hr).1
  | false => rw [tick_cin s hrst, hr, cinNext_stalled]; rfl

/-- Settles O20, state by state: the tick of the inserter is its step on the writer's word. -/
theorem crcAppendStep : Obligations.CrcAppendStep := by
  intro s ⟨hc, hrst⟩
  have hnext : (tick s).cin = cinNext s.cin (txWrt s) (rdyFrm s) := tick_cin s hrst
  refine ⟨fun hin hst => ⟨?quietOut, cinInReady_eq hst _, tick s, step_eq_tick hc, ?quietNext⟩,
    fun hworks => ⟨tick s, exec_of_occurs hc (by simpa [occurs, cinWorks] using hworks), fun hr => ?stalled,
      fun w hin hst => ?first, fun w hin hst => ?body, fun w hin hst => ?bypass, fun hst => ?trailer⟩⟩
  case quietOut => rw [txCin, hin, cinOut_none hst]
  case quietNext => rw [hnext, hin, cinNext_none hst]
  case stalled => exact ⟨by rw [hnext, hr, cinNext_stalled], by rw [rdyCin, hr, cinInReady_stalled]⟩
  case first =>
    obtain ⟨hout, hready, hcin⟩ := tick_cin_word hrst (by simp [hst]) hin
    refine ⟨hout.trans (cinOut_first hst), hready, fun hr => ?_⟩
    rw [hcin hr, cinNext_first hst]
    exact ⟨rfl, rfl⟩
  case body =>
    obtain ⟨hout, hready, hcin⟩ := tick_cin_word hrst (by simp [hst]) hin
    refine ⟨hout.trans (cinOut_body hst), hready, fun hr => ?_⟩
    rw [hcin hr, cinNext_body hst]
    exact ⟨rfl, rfl⟩
  case bypass =>
    obtain ⟨hout, hready, hcin⟩ := tick_cin_word hrst (by simp [hst]) hin
    refine ⟨hout.trans (cinOut_bypass hst), hready, fun hr => ?_⟩
    rw [hcin hr, cinNext_bypass hst]
    exact ⟨rfl, rfl⟩
  case trailer =>
    exact ⟨cinOut_trailer hst, cinInReady_trailer hst _, fun hr => by rw [hnext, hr, cinNext_trailer hst]; rfl⟩

/-! ### A whole packet (rule R430) -/

/-- A word as the writer offers it. -/
def writerWord (crcEn : Bool) (w : Word) : WWord := ⟨w.data, w.k, w.eop, crcEn⟩

/-- One tick in a state that passes words. -/
theorem cinFeed_word {b : Cin} (hst : b.st ≠ .trailer) (n : Nat) (w : WWord) (q : List WWord) :
    cinFeed (n + 1) b (w :: q) =
      ((cinFeed n (cinNext b (some w) true) q).1, (cinFeed n (cinNext b (some w) true) q).2.1,
        (cinOut b (some w)).toList ++ (cinFeed n (cinNext b (some w) true) q).2.2) := by
  rw [cinFeed_succ, cinInReady_eq hst]; rfl

/-- The tick of the trailer takes no word. -/
theorem cinFeed_trailer (crc : Data) (q : List WWord) :
    cinFeed 1 ⟨.trailer, crc⟩ q = (⟨.first, crcSeed⟩, q, [⟨rev32 crc, noMarks, true⟩]) := rfl

/-- BODY passes the rest of a packet, then sends the trailer. -/
theorem cinFeed_body (w : Data × Marks) (ws : List (Data × Marks)) (crc : Data) (rest : List WWord) :
    cinFeed (ws.length + 2) ⟨.body, crc⟩ ((asPacket (w :: ws)).map (writerWord true) ++ rest) =
      (⟨.first, crcSeed⟩, rest,
        asPacket (w :: ws ++ [(rev32 (((w :: ws).map (·.1)).foldl crcStep crc), noMarks)])) := by
  induction ws generalizing w crc with
  | nil => rfl
  | cons v ws ih =>
    have htick := cinFeed_word (b := ⟨.body, crc⟩) (by simp) (ws.length + 2) ⟨w.1, w.2, false, true⟩
      ((asPacket (v :: ws)).map (writerWord true) ++ rest)
    rw [cinNext_body rfl, cinOut_body rfl] at htick
    exact htick.trans (by rw [if_neg (by simp), ih]; rfl)

/-- BYPASS passes the rest of a packet. -/
theorem cinFeed_bypass (w : Data × Marks) (ws : List (Data × Marks)) (crc : Data) (rest : List WWord) :
    cinFeed (ws.length + 1) ⟨.bypass, crc⟩ ((asPacket (w :: ws)).map (writerWord false) ++ rest) =
      (⟨.first, crc⟩, rest, asPacket (w :: ws)) := by
  induction ws generalizing w with
  | nil => rfl
  | cons v ws ih =>
    have htick := cinFeed_word (b := ⟨.bypass, crc⟩) (by simp) (ws.length + 1) ⟨w.1, w.2, false, false⟩
      ((asPacket (v :: ws)).map (writerWord false) ++ rest)
    rw [cinNext_bypass rfl, cinOut_bypass rfl] at htick
    exact htick.trans (by rw [if_neg (by simp), ih]; rfl)

/-- A command packet gets the trailer of its words after the first. -/
theorem cinFeed_command (crc : Data) (ty : Data × Marks) (ws : List (Data × Marks)) (rest : List WWord) :
    cinFeed (ws.length + 2) ⟨.first, crc⟩ ((asPacket (ty :: ws)).map (writerWord true) ++ rest) =
      (⟨.first, crcSeed⟩, rest, asPacket (ty :: ws ++ [(rev32 (crcSeq (ws.map (·.1))), noMarks)])) := by
  cases ws with
  | nil => rfl
  | cons w ws =>
    have htick := cinFeed_word (b := ⟨.first, crc⟩) (by simp) (ws.length + 2) ⟨ty.1, ty.2, false, true⟩
      ((asPacket (w :: ws)).map (writerWord true) ++ rest)
    rw [cinNext_first rfl, cinOut_first rfl] at htick
    exact htick.trans (by rw [if_pos rfl, if_neg (by simp), cinFeed_body]; rfl)

/-- A packet with `crc_en` 0 passes unchanged. -/
theorem cinFeed_plain (crc : Data) (ty : Data × Marks) (ws : List (Data × Marks)) (rest : List WWord) :
    cinFeed (ws.length + 1) ⟨.first, crc⟩ ((asPacket (ty :: ws)).map (writerWord false) ++ rest) =
      (⟨.first, crcSeed⟩, rest, asPacket (ty :: ws)) := by
  cases ws with
  | nil => rfl
  | cons w ws =>
    have htick := cinFeed_word (b := ⟨.first, crc⟩) (by simp) (ws.length + 1) ⟨ty.1, ty.2, false, false⟩
      ((asPacket (w :: ws)).map (writerWord false) ++ rest)
    rw [cinNext_first rfl, cinOut_first rfl] at htick
    exact htick.trans (by rw [if_neg (by simp), if_neg (by simp), cinFeed_bypass]; rfl)

/-- Settles O51: `crc_en` of the first word decides between BODY and BYPASS, and each passes the rest. -/
theorem crcInserterOnAPacket : Obligations.CrcInserterOnAPacket := by
  intro crc ty ps rest
  have hcommand := cinFeed_command crc (ty, 0#4) (ps.map fun d => (d, 0#4)) rest
  have hplain := cinFeed_plain crc (ty, 0#4) (ps.map fun d => (d, 0#4)) rest
  have hdata : (ps.map fun d => (d, (0#4 : Marks))).map (·.1) = ps :=
    (List.map_map ..).trans (List.map_id ps)
  rw [List.length_map] at hcommand hplain
  rw [hdata] at hcommand
  exact ⟨hcommand, hplain⟩

end Sys2Proof.Machine

/-!
The receive blocks agree on the packet (rules R427, R529, R641, R661, R665): each consumer is inside a packet
only while the block before it holds a word of that packet.
-/
namespace Sys2Proof.Machine

/-! ### The classifier's word and the packet it is in (rules R522, R526 to R529) -/

section ClassifierHolds
variable {c : Config} {b : Cls}

/-- The classifier holds words in PAYLOAD only (rule R529). -/
def ClsHeld (b : Cls) : Prop := b.hv = true → b.st = .payload

/-- What the classifier holds after a tick, from what it emits in it: a word with `eop` leaves nothing held,
and otherwise a held word is followed by a held word of the same packet. -/
structure ClsFollows (b b' : Cls) (emitted : Option Word) : Prop where
  held : ClsHeld b'
  emits : ∀ w, emitted = some w → b.hv = true
  goesOn : b.hv = true → (∀ w, emitted = some w → w.eop = false) → b'.hv = true ∧ b'.port = b.port

/-- A tick without a word, with an idle word, or outside a packet: nothing is emitted, and what is held
stays. -/
theorem ClsFollows.of_quiet {b b' : Cls} (held : ClsHeld b') (hhv : b.hv = true → b' = b) :
    ClsFollows b b' none :=
  ⟨held, by simp, fun h _ => by rw [hhv h]; exact ⟨h, rfl⟩⟩

theorem clsScan_hv (b : Cls) (w : DWord) : (clsScan b w).hv = b.hv := by
  unfold clsScan; split <;> rfl

theorem clsType_hv (hhv : b.hv = false) (w : DWord) : (clsType c b w).hv = false := by
  unfold clsType
  split
  case h_1 | h_2 | h_3 => exact hhv
  case h_4 =>
    split
    · rfl
    · exact hhv

/-- Outside PAYLOAD nothing is held, before the tick or after it. -/
theorem clsNext_hv_outside (hb : ClsHeld b) (hst : b.st ≠ .payload) (taken : Option DWord) :
    b.hv = false ∧ (clsNext c b taken).hv = false := by
  have hhv : b.hv = false := by
    cases h : b.hv with
    | false => rfl
    | true => exact absurd (hb h) hst
  refine ⟨hhv, ?_⟩
  cases taken with
  | none => exact hhv
  | some w =>
    cases h : b.st with
    | scan => simp [clsNext, h, clsScan_hv, hhv]
    | type => simp [clsNext, h, clsType_hv hhv]
    | payload => exact absurd h hst

/-- In PAYLOAD an idle word changes nothing (rule R526). -/
theorem clsNext_payload_idle {w : DWord} (hst : b.st = .payload) (hidle : isIdle w = true) :
    clsNext c b (some w) = b := by
  simp [clsNext, clsPayload, hst, classOf, hidle]

theorem clsEmit_idle {w : DWord} (hidle : isIdle w = true) : clsEmit b (some w) = none := by
  have hclass : classOf w = .idle := by simp [classOf, hidle]
  cases hst : b.st <;> simp [clsEmit, hst, hclass]

theorem clsNext_follows (hb : ClsHeld b) (taken : Option DWord) :
    ClsFollows b (clsNext c b taken) (clsEmit b taken) := by
  by_cases hst : b.st = .payload
  case neg =>
    obtain ⟨hhv, hnext⟩ := clsNext_hv_outside (c := c) hb hst taken
    rw [clsEmit_outside_payload hst]
    exact .of_quiet (by simp [ClsHeld, hnext]) (by simp [hhv])
  case pos =>
    cases taken with
    | none => exact .of_quiet hb fun _ => rfl
    | some w =>
      cases hidle : isIdle w with
      | true =>
        rw [clsNext_payload_idle hst hidle, clsEmit_idle hidle]
        exact .of_quiet hb fun _ => rfl
      | false =>
        rw [clsNext_payload hst hidle, clsEmit_payload hst hidle]
        constructor
        case held => cases isStart w <;> cases isEnd w <;> simp [ClsHeld, hst]
        case emits => cases b.hv <;> simp
        case goesOn =>
          intro hhv hgo
          have hmark : (isStart w || isEnd w) = false := hgo ⟨b.hData, b.hK, _⟩ (by rw [hhv]; rfl)
          obtain ⟨hs, he⟩ := Bool.or_eq_false_iff.1 hmark
          simp [hs, he]

end ClassifierHolds

/-! ### A consumer's place in a packet, from the words it takes (rules R427, R641, R661, R665) -/

/-- A consumer is inside a packet after a tick (`later`) only if it took a word without `eop`, or took none
and was inside one before (`now`). -/
def Counts (now later : Prop) (inp : Option Word) : Prop :=
  later → (inp = none ∧ now) ∨ ∃ w, inp = some w ∧ w.eop = false

theorem Counts.of_step {now : Prop} {later : Option Word → Prop} (hnone : later none → now)
    (hlast : ∀ w, w.eop = true → ¬ later (some w)) (inp : Option Word) : Counts now (later inp) inp := by
  intro h
  cases inp with
  | none => exact .inl ⟨rfl, hnone h⟩
  | some w => exact .inr ⟨w, rfl, Bool.eq_false_of_not_eq_true fun he => hlast w he h⟩

theorem chkNext_counts (b : Chk) (inp : Option Word) :
    Counts (b.hv = true) ((chkNext b inp).hv = true) inp :=
  .of_step (later := fun inp => (chkNext b inp).hv = true) id
    (fun w he => by simp [chkNext_trailer he]) inp

theorem hbrNext_counts (b : Hbr) (inp : Option Word) (e : Bool) :
    Counts (b.cnt ≠ 0#2) ((hbrNext b inp e).cnt ≠ 0#2) inp :=
  .of_step (later := fun inp => (hbrNext b inp e).cnt ≠ 0#2) id
    (fun w he => by simp [hbrNext, he]) inp

theorem rsmNext_counts (c : Config) (b : Rsm) (inp : Option Word) (e : Bool) (pins : HostIn) :
    Counts (b.wcount ≠ 0) ((rsmNext c b inp e pins).wcount ≠ 0) inp :=
  .of_step (later := fun inp => (rsmNext c b inp e pins).wcount ≠ 0) id (fun w he => by simp [he]) inp

theorem tckNext_counts (c : Config) (b : Tck) (inp : Option Word) :
    Counts (b.wcnt ≠ 0#11) ((tckNext c b inp).wcnt ≠ 0#11) inp :=
  .of_step (later := fun inp => (tckNext c b inp).wcnt ≠ 0#11) id
    (fun w he => by simp [tckNext, he]) inp

/-- The test checker's word count never passes from 1024 back to 0 within a packet (rule R665). -/
theorem tckCount_ne_zero (b : Tck) : tckCount b ≠ 0#11 := by
  unfold tckCount
  split
  · decide
  · bv_omega

theorem tckNext_clean {b : Tck} (hb : b.wcnt = 0#11 → b.bad = false) (c : Config) (inp : Option Word) :
    (tckNext c b inp).wcnt = 0#11 → (tckNext c b inp).bad = false := by
  cases inp with
  | none => exact hb
  | some w =>
    unfold tckNext
    dsimp only
    split
    · exact fun _ => rfl
    · exact fun h => absurd h (tckCount_ne_zero b)

theorem chkNext_seed {b : Chk} (hb : b.hv = false → b.crc = crcSeed) (inp : Option Word) :
    (chkNext b inp).hv = false → (chkNext b inp).crc = crcSeed := by
  cases inp with
  | none => exact hb
  | some w =>
    cases he : w.eop with
    | false => simp [chkNext_word he]
    | true => simp [chkNext_trailer he]

/-! ### The block before a consumer (rules R427, R529) -/

/-- A consumer on a port of the classifier stays inside packets of that port. -/
theorem Counts.on_port {b b' : Cls} {taken : Option DWord} {p : Port} {now later : Prop}
    (hcls : ClsFollows b b' (clsEmit b taken))
    (hcount : Counts now later (if b.port = p then clsEmit b taken else none))
    (hnow : now → b.hv = true ∧ b.port = p) (hlater : later) : b'.hv = true ∧ b'.port = p := by
  have hgo : b.hv = true ∧ b.port = p ∧ ∀ w, clsEmit b taken = some w → w.eop = false := by
    rcases hcount hlater with ⟨hin, h⟩ | ⟨w, hin, he⟩
    · obtain ⟨hhv, hp⟩ := hnow h
      rw [if_pos hp] at hin
      exact ⟨hhv, hp, by simp [hin]⟩
    · obtain ⟨hp, hin⟩ : b.port = p ∧ clsEmit b taken = some w := by
        split at hin
        case isTrue hp => exact ⟨hp, hin⟩
        case isFalse => cases hin
      exact ⟨hcls.emits w hin, hp, fun v hv => by rwa [Option.some.inj (hv.symm.trans hin)]⟩
  obtain ⟨hhv, hp, heop⟩ := hgo
  obtain ⟨hhv', hp'⟩ := hcls.goesOn hhv heop
  exact ⟨hhv', hp'.trans hp⟩

/-- A consumer behind a checker is inside a packet only while the checker holds a word. -/
theorem Counts.behind_checker {b : Chk} {inp : Option Word} {now later : Prop}
    (hcount : Counts now later (chkOut b inp)) (hnow : now → b.hv = true) (hlater : later) :
    (chkNext b inp).hv = true := by
  cases inp with
  | none =>
    rcases hcount hlater with ⟨-, h⟩ | ⟨w, hout, -⟩
    · exact hnow h
    · cases hout
  | some w =>
    have heop : w.eop = false := by
      rw [chkOut_some] at hcount
      rcases hcount hlater with ⟨hout, h⟩ | ⟨v, hout, he⟩
      · rw [if_pos (hnow h)] at hout
        cases hout
      · split at hout
        case isTrue => cases hout; exact he
        case isFalse => cases hout
    rw [chkNext_word heop]

/-! ### The core -/

theorem driveRow_receiveAligned (i : Instr) (s : State) (h : ReceiveAligned s) :
    ReceiveAligned (driveRow i s) := by
  rw [driveRow_eq_pins]
  exact { h with }

theorem tick_receiveAligned (s : State) (h : ReceiveAligned s) : ReceiveAligned (tick s) := by
  apply tick_blocks s
  case hr => constructor <;> simp [clsReset, chkReset, hbrReset, tckReset, rsmReset]
  case hn =>
    have hcls : ClsFollows s.cls (clsNext s.cfg s.cls (clsTaken s)) (clsEmit s.cls (clsTaken s)) :=
      clsNext_follows h.held _
    exact
      { held := hcls.held
        hbHeld := (chkNext_counts s.chkHb _).on_port hcls h.hbHeld
        cmdHeld := (chkNext_counts s.chkCmd _).on_port hcls h.cmdHeld
        hbSeed := chkNext_seed h.hbSeed _
        cmdSeed := chkNext_seed h.cmdSeed _
        hbCount := (hbrNext_counts s.hbr _ _).behind_checker h.hbCount
        cmdCount := (rsmNext_counts s.cfg s.rsm _ _ _).behind_checker h.cmdCount
        testCount := (tckNext_counts s.cfg s.tck _).on_port hcls h.testCount
        testClean := tckNext_clean h.testClean s.cfg _ }

/-- Settles O42: each consumer counts by the words of the block before it, and that block holds a word as long
as no word with `eop` has left it. -/
theorem stepKeepsReceiveAligned : Obligations.StepKeepsReceiveAligned :=
  kept driveRow_receiveAligned tick_receiveAligned

end Sys2Proof.Machine

/-!
The transmit blocks agree on the packet (rules R429, R503, R508): the CRC inserter's state says how far the
writer is, and a packet passes only while the framer copies.
-/
namespace Sys2Proof.Machine

section InserterAndWriter
variable {c : Config} {b : Cin} {w : Wrt} {word : Data}

/-- Where the writer stands while the inserter is in a state (rule R429). -/
def WriterStands : CinSt → Wrt → Prop
  | .first, w => beforePacket w = true
  | .trailer, w => beforePacket w = true
  | .body, w => w.st = .cmd ∧ w.idx ≠ 0
  | .bypass, w => w.st = .testData

/-- The inserter agrees with the writer, and its register is at the seed where it covers no word. -/
structure InserterAligned (b : Cin) (w : Wrt) : Prop where
  stands : WriterStands b.st w
  seed : b.st = .first ∨ b.st = .bypass → b.crc = crcSeed

/-! ### The writer's place after a tick (rules R603, R605 to R607) -/

@[simp] theorem wrtNext_st (pins : HostIn) (r : Bool) :
    (wrtNext c w pins r).st = (wrtRun c w pins.startCmd pins.startTest r).st := rfl

@[simp] theorem wrtNext_idx (pins : HostIn) (r : Bool) :
    (wrtNext c w pins r).idx = (wrtRun c w pins.startCmd pins.startTest r).idx := rfl

theorem beforePacket_iff :
    beforePacket w = true ↔ w.st = .idle ∨ (w.st = .cmd ∧ w.idx = 0) ∨ w.st = .testType := by
  simp [beforePacket, or_assoc]

/-- A start strobe brings the writer before the first word of its packet. -/
theorem wrtStart_before (hst : w.st = .idle) (startCmd startTest : Bool) :
    beforePacket (wrtStart c w startCmd startTest) = true := by
  rw [beforePacket_iff]
  unfold wrtStart
  split
  · exact .inr (.inl ⟨rfl, rfl⟩)
  · split
    · exact .inr (.inr rfl)
    · exact .inl hst

/-- In IDLE the writer starts a packet or stays, whatever its consumer does. -/
theorem wrtNext_idle (hst : w.st = .idle) (pins : HostIn) (r : Bool) :
    beforePacket (wrtNext c w pins r) = true := by
  have hrun : wrtRun c w pins.startCmd pins.startTest r = wrtStart c w pins.startCmd pins.startTest := by
    simp [wrtRun, hst]
  rw [beforePacket_iff, wrtNext_st, wrtNext_idx, hrun]
  exact beforePacket_iff.1 (wrtStart_before hst _ _)

/-- In a packet the writer stays while its consumer is not ready. -/
theorem wrtNext_stalled (hst : w.st ≠ .idle) (pins : HostIn) :
    (wrtNext c w pins false).st = w.st ∧ (wrtNext c w pins false).idx = w.idx := by
  have hrun : wrtRun c w pins.startCmd pins.startTest false = w := by
    unfold wrtRun; split <;> simp_all
  rw [wrtNext_st, wrtNext_idx, hrun]
  exact ⟨rfl, rfl⟩

/-- After a word of a command packet the writer is done, or at the next word. -/
theorem wrtNext_cmd (hw : WriterInRange c w) (hst : w.st = .cmd) (pins : HostIn) :
    (wrtAtLast c w = true → (wrtNext c w pins true).st = .idle) ∧
    (wrtAtLast c w = false → (wrtNext c w pins true).st = .cmd ∧ (wrtNext c w pins true).idx ≠ 0) := by
  have hrun : wrtRun c w pins.startCmd pins.startTest true =
      if wrtAtLast c w then { w with idx := 0, st := .idle }
      else { w with idx := incAt c.lenBits w.idx } := by
    simp [wrtRun, hst]
  have hwidth : w.idx + 1 < 2 ^ c.lenBits := by
    have hbound := lenBits_bound c
    have hidx := hw.idxInPacket hst
    have hlen := hw.curLen
    omega
  have hsucc : incAt c.lenBits w.idx = w.idx + 1 := Nat.mod_eq_of_lt hwidth
  rw [wrtNext_st, wrtNext_idx, hrun]
  constructor
  · intro hlast; simp [hlast]
  · intro hlast; simp [hlast, hst, hsucc]

theorem wrtNext_testType (hst : w.st = .testType) (pins : HostIn) :
    (wrtNext c w pins true).st = .testData := by
  simp [wrtRun, hst]

/-- After a pattern word the writer is done, or at the next word. -/
theorem wrtNext_testData (hst : w.st = .testData) (pins : HostIn) :
    (wrtNext c w pins true).st = if w.n == testLast then .idle else .testData := by
  have hrun : wrtRun c w pins.startCmd pins.startTest true =
      if w.n = testLast then { w with n := 0#12, st := .idle } else { w with n := w.n + 4#12 } := by
    simp [wrtRun, hst]
  rw [wrtNext_st, hrun]
  by_cases hlast : w.n = testLast <;> simp [hlast, hst]

/-- Without a taken word every place the inserter knows of is kept. -/
theorem WriterStands.stalled {st : CinSt} (h : WriterStands st w) (pins : HostIn) :
    WriterStands st (wrtNext c w pins false) := by
  have hbefore (hb : beforePacket w = true) : beforePacket (wrtNext c w pins false) = true := by
    by_cases hidle : w.st = .idle
    · exact wrtNext_idle hidle pins false
    · obtain ⟨hst, hidx⟩ := wrtNext_stalled (c := c) hidle pins
      rw [beforePacket_iff, hst, hidx]
      exact beforePacket_iff.1 hb
  cases st with
  | first => exact hbefore h
  | trailer => exact hbefore h
  | body =>
    obtain ⟨hcmd, hidx⟩ := h
    obtain ⟨hst', hidx'⟩ := wrtNext_stalled (c := c) (w := w) (by simp [hcmd]) pins
    exact ⟨hst'.trans hcmd, hidx' ▸ hidx⟩
  | bypass =>
    have htest : w.st = .testData := h
    obtain ⟨hst', -⟩ := wrtNext_stalled (c := c) (w := w) (by simp [htest]) pins
    exact hst'.trans htest

/-! ### The words of the writer (rules R605 to R607) -/

theorem wrtOut_idle (hst : w.st = .idle) : wrtOut c w word = none := by simp [wrtOut, hst]

theorem wrtOut_cmd (hst : w.st = .cmd) :
    wrtOut c w word = some ⟨word, noMarks, wrtAtLast c w, true⟩ := by simp [wrtOut, hst]

theorem wrtOut_testType (hst : w.st = .testType) :
    wrtOut c w word = some ⟨typeTestData, noMarks, false, false⟩ := by simp [wrtOut, hst]

theorem wrtOut_testData (hst : w.st = .testData) :
    wrtOut c w word = some ⟨pat w.n.toNat, noMarks, w.n == testLast, false⟩ := by simp [wrtOut, hst]

/-! ### The inserter and the writer in one tick (rule R429) -/

/-- A writer back in IDLE stands before its next packet. -/
theorem beforePacket_of_idle (hst : w.st = .idle) : beforePacket w = true :=
  beforePacket_iff.2 (.inl hst)

/-- A command word taken: the inserter goes on as the writer does, to BODY or to the trailer. -/
theorem writerStands_cmd_taken (hw : WriterInRange c w) (hst : w.st = .cmd) (pins : HostIn) :
    WriterStands (if wrtAtLast c w then .trailer else .body) (wrtNext c w pins true) := by
  obtain ⟨hlast, hmore⟩ := wrtNext_cmd hw hst pins
  cases h : wrtAtLast c w with
  | true => exact beforePacket_of_idle (hlast h)
  | false => exact hmore h

/-- A pattern word taken: the inserter goes on as the writer does, to BYPASS or before the next packet. -/
theorem writerStands_testData_taken (hst : w.st = .testData) (pins : HostIn) :
    WriterStands (if w.n == testLast then .first else .bypass) (wrtNext c w pins true) := by
  have hnext := wrtNext_testData (c := c) hst pins
  cases h : w.n == testLast with
  | true => exact beforePacket_of_idle (by simpa [h] using hnext)
  | false => simpa [WriterStands, h] using hnext

/-- The tick keeps the inserter and the writer agreed, word by word taken; `r` is the framer's readiness. -/
theorem InserterAligned.tick (h : InserterAligned b w) (hw : WriterInRange c w) (pins : HostIn) (r : Bool) :
    InserterAligned (cinNext b (wrtOut c w word) r) (wrtNext c w pins (cinInReady b r)) := by
  obtain ⟨hstands, hseed⟩ := h
  cases r with
  | false =>
    rw [cinNext_stalled, cinInReady_stalled]
    exact ⟨hstands.stalled pins, hseed⟩
  | true =>
    cases hst : b.st with
    | first =>
      rw [hst] at hstands
      rw [cinInReady_eq (by simp [hst])]
      rcases beforePacket_iff.1 hstands with hidle | ⟨hcmd, -⟩ | htype
      · rw [wrtOut_idle hidle, cinNext_none (by simp [hst])]
        refine ⟨?_, hseed⟩
        rw [hst]
        exact wrtNext_idle hidle pins true
      · rw [wrtOut_cmd hcmd, cinNext_first hst]
        exact ⟨writerStands_cmd_taken hw hcmd pins, fun _ => rfl⟩
      · rw [wrtOut_testType htype, cinNext_first hst]
        exact ⟨wrtNext_testType htype pins, fun _ => rfl⟩
    | body =>
      rw [hst] at hstands
      obtain ⟨hcmd, -⟩ := hstands
      rw [cinInReady_eq (by simp [hst]), wrtOut_cmd hcmd, cinNext_body hst]
      refine ⟨writerStands_cmd_taken hw hcmd pins, ?_⟩
      cases wrtAtLast c w <;> simp
    | trailer =>
      rw [hst] at hstands
      rw [cinInReady_trailer hst, cinNext_trailer hst]
      have hbefore : beforePacket (wrtNext c w pins false) = true := hstands.stalled (st := .trailer) pins
      exact ⟨hbefore, fun _ => rfl⟩
    | bypass =>
      rw [hst] at hstands
      rw [cinInReady_eq (by simp [hst]), wrtOut_testData hstands, cinNext_bypass hst]
      exact ⟨writerStands_testData_taken hstands pins, fun _ => hseed (.inr hst)⟩

/-- What leaves the inserter with `eop` is the last word of its packet (rule R429). -/
theorem cinNext_first_of_eop {inp : Option WWord} {v : Word} (hout : cinOut b inp = some v)
    (heop : v.eop = true) : (cinNext b inp true).st = .first := by
  by_cases htrailer : b.st = .trailer
  case pos => rw [cinNext_trailer htrailer]
  case neg =>
    cases inp with
    | none => rw [cinOut_none htrailer] at hout; cases hout
    | some u =>
      cases hst : b.st with
      | trailer => exact absurd hst htrailer
      | first =>
        rw [cinOut_first hst] at hout
        cases hout
        obtain ⟨hlast, hplain⟩ : u.eop = true ∧ u.crcEn = false := by simpa using heop
        simp [cinNext_first hst, hlast, hplain]
      | body =>
        rw [cinOut_body hst] at hout
        cases hout
        cases heop
      | bypass =>
        rw [cinOut_bypass hst] at hout
        cases hout
        have hlast : u.eop = true := heop
        simp [cinNext_bypass hst, hlast]

end InserterAndWriter

/-! ### The framer behind the inserter (rules R501 to R504, R508) -/

/-- Only a taken word with `eop` takes the framer out of COPY (rule R503). -/
theorem frmNext_leaves_copy {inp : Option Word} {r : Bool} (h : frmNext .copy inp r ≠ .copy) :
    r = true ∧ ∃ v, inp = some v ∧ v.eop = true := by
  cases inp with
  | none => exact absurd rfl h
  | some v =>
    rw [frmNext_copy_some] at h
    cases htaken : r && v.eop with
    | false => simp [htaken] at h
    | true =>
      obtain ⟨hr, he⟩ := Bool.and_eq_true_iff.1 htaken
      exact ⟨hr, v, rfl, he⟩

/-- Out of COPY the framer stalls the inserter, and it leaves COPY only with the last word of a packet: so
the inserter is before a packet whenever the framer does not copy. -/
theorem framed_next {s : State} (h : s.frm ≠ .copy → s.cin.st = .first)
    (hnext : frmNext s.frm (txCin s) (rdyIdl s) ≠ .copy) :
    (cinNext s.cin (txWrt s) (rdyFrm s)).st = .first := by
  by_cases hfrm : s.frm = .copy
  case pos =>
    rw [hfrm] at hnext
    obtain ⟨hidl, v, hout, heop⟩ := frmNext_leaves_copy hnext
    rw [rdyFrm_eq_true_iff.2 ⟨hfrm, hidl⟩]
    exact cinNext_first_of_eop hout heop
  case neg =>
    have hstall : rdyFrm s = false :=
      Bool.eq_false_of_not_eq_true fun hr => hfrm (rdyFrm_eq_true_iff.1 hr).1
    rw [hstall, cinNext_stalled]
    exact h hfrm

/-! ### The core -/

theorem transmitAligned_iff (s : State) :
    TransmitAligned s ↔ InserterAligned s.cin s.wrt ∧ (s.frm ≠ .copy → s.cin.st = .first) := by
  constructor
  · rintro ⟨first, trailer, body, bypass, seed, framed⟩
    refine ⟨⟨?_, seed⟩, framed⟩
    cases hst : s.cin.st with
    | first => exact first hst
    | trailer => exact trailer hst
    | body => exact body hst
    | bypass => exact bypass hst
  · rintro ⟨⟨stands, seed⟩, framed⟩
    exact
      { first := fun hst => by rwa [hst] at stands
        trailer := fun hst => by rwa [hst] at stands
        body := fun hst => by rwa [hst] at stands
        bypass := fun hst => by rwa [hst] at stands
        seed := seed
        framed := framed }

/-- The transmit blocks agree, in a core whose ranges hold: the writer's index must not wrap (rule R605). -/
structure TransmitInvariant (s : State) : Prop where
  ranges : BlocksInRange s
  aligned : TransmitAligned s

theorem driveRow_transmitInvariant (i : Instr) (s : State) (h : TransmitInvariant s) :
    TransmitInvariant (driveRow i s) := by
  refine ⟨driveRow_blocksInRange i s h.ranges, ?_⟩
  rw [driveRow_eq_pins]
  exact { h.aligned with }

theorem tick_transmitInvariant (s : State) (h : TransmitInvariant s) : TransmitInvariant (tick s) := by
  refine ⟨tick_blocksInRange s h.ranges, ?_⟩
  obtain ⟨hcin, hframed⟩ := (transmitAligned_iff s).1 h.aligned
  apply tick_blocks s
  case hr => exact (transmitAligned_iff _).2 ⟨⟨rfl, fun _ => rfl⟩, fun _ => rfl⟩
  case hn =>
    exact (transmitAligned_iff _).2
      ⟨hcin.tick h.ranges.wrt s.inp.host (rdyFrm s), fun hfrm => framed_next hframed hfrm⟩

/-- Settles O43: the inserter and the writer take the same words, and the framer leaves COPY with the last. -/
theorem stepKeepsTransmitAligned : Obligations.StepKeepsTransmitAligned := by
  intro s t hm hr ha h
  have hs : TransmitInvariant s := ⟨(blocksInRange_iff s).2 ⟨hm, hr⟩, ha⟩
  exact (kept driveRow_transmitInvariant tick_transmitInvariant s t hs h).aligned

end Sys2Proof.Machine

/-!
The idle inserter (rules R441, R442, R445) and the trigger-ack inserter behind it (rules R480 to R482): their
states, their ticks in the core, and the countdown between two idle words.
-/
namespace Sys2Proof.Machine

/-! ### The idle inserter's two states (rules R441, R442) -/

section IdleInserter
variable {b : Idl} {inp : Option Word}

@[simp] theorem idlNext_stalled (b : Idl) (inp : Option Word) : idlNext b inp false = b := rfl

@[simp] theorem idlInReady_stalled (b : Idl) : idlInReady b false = false := by
  cases h : b.st <;> simp [idlInReady, h]

theorem idlOut_writeIdle (hst : b.st = .writeIdle) : idlOut b inp = some idleWord := by
  simp [idlOut, hst]

theorem idlInReady_writeIdle (hst : b.st = .writeIdle) (r : Bool) : idlInReady b r = false := by
  simp [idlInReady, hst]

theorem idlNext_writeIdle (hst : b.st = .writeIdle) : idlNext b inp true = ⟨.copy, 9999#14⟩ := by
  simp [idlNext, hst, idleReload]

theorem idlOut_copy (hst : b.st = .copy) : idlOut b inp = inp := by
  simp [idlOut, hst]

theorem idlInReady_copy (hst : b.st = .copy) (r : Bool) : idlInReady b r = r := by
  simp [idlInReady, hst]

/-- COPY with an accepted word: the countdown is tested before it is decremented. -/
theorem idlNext_copy_some (hst : b.st = .copy) (w : Word) :
    idlNext b (some w) true =
      { st := if w.eop || b.cnt == 0#14 then .writeIdle else .copy
        cnt := if b.cnt = 0#14 then 0#14 else b.cnt - 1#14 } := by
  by_cases hcnt : b.cnt = 0#14 <;> simp [idlNext, idlLeavesCopy, hst, hcnt]

/-- COPY without a word: an idle word fills the gap. -/
theorem idlNext_copy_none (hst : b.st = .copy) : idlNext b none true = { b with st := .writeIdle } := by
  simp [idlNext, idlLeavesCopy, hst]

theorem idlNext_copy_leaves_iff (hst : b.st = .copy) :
    (idlNext b inp true).st = .writeIdle ↔
      inp = none ∨ (∃ w, inp = some w ∧ w.eop = true) ∨ b.cnt = 0#14 := by
  cases inp with
  | none => simp [idlNext_copy_none hst]
  | some w => cases heop : w.eop <;> simp [idlNext_copy_some hst, heop]

theorem idlNext_copy_cnt (hst : b.st = .copy) :
    (idlNext b inp true).cnt.toNat = if inp.isSome then b.cnt.toNat - 1 else b.cnt.toNat := by
  cases inp with
  | none => simp [idlNext_copy_none hst]
  | some w =>
    rw [idlNext_copy_some hst]
    by_cases hcnt : b.cnt = 0#14
    · simp [hcnt]
    · simp only [hcnt, if_false, Option.isSome_some, if_true]
      bv_omega

end IdleInserter

/-- Settles O21, state by state: the tick of the inserter is its step on the framer's word. -/
theorem idleInsertStep : Obligations.IdleInsertStep := by
  intro s ⟨hc, hrst⟩
  have hnext : (tick s).idl = idlNext s.idl (txFrm s) (rdyAin s) := tick_idl s hrst
  refine ⟨tick s, exec_of_occurs hc rfl, fun hr => ?stalled, fun hst => ?writeIdle, fun hst => ?copy⟩
  case stalled => exact ⟨by rw [hnext, hr, idlNext_stalled], by rw [rdyIdl, hr, idlInReady_stalled]⟩
  case writeIdle =>
    refine ⟨idlOut_writeIdle hst, idlInReady_writeIdle hst _, fun hr => ?_⟩
    rw [hnext, hr, idlNext_writeIdle hst]
    exact ⟨rfl, rfl⟩
  case copy =>
    refine ⟨idlOut_copy hst, idlInReady_copy hst _, fun hr => ?_⟩
    rw [hnext, hr]
    exact ⟨idlNext_copy_leaves_iff hst, idlNext_copy_cnt hst⟩

/-! ### The trigger-ack inserter and the converter behind the idle inserter (rules R480 to R482, R491) -/

section InsertedWord
variable {s : State} {w : Word}

/-- In ACK_K and ACK_DATA the trigger-ack inserter takes nothing (rules R481, R482). -/
theorem rdyAin_of_acking (hst : s.ain ≠ .copy) : rdyAin s = false := by
  cases h : s.ain <;> simp_all [rdyAin, ainInReady]

/-- Only in COPY does the trigger-ack inserter take words (rule R480). -/
theorem rdyAin_eq_true_iff : rdyAin s = true ↔ s.ain = .copy ∧ rdyCnv s = true := by
  cases h : s.ain <;> simp [rdyAin, ainInReady, h]

theorem txAin_copy (hst : s.ain = .copy) : txAin s = txIdl s := by
  simp [txAin, ainOut, hst]

/-- While an ack is sent the idle inserter stands still. -/
theorem tick_idl_acking (hrst : s.inp.rst = false) (hst : s.ain ≠ .copy) : (tick s).idl = s.idl := by
  rw [tick_idl s hrst, rdyAin_of_acking hst, idlNext_stalled]

/-- A ready converter holds the word offered to it, at lane 0 (rule R491). -/
theorem tick_cnv_taken (hrst : s.inp.rst = false) (hin : txAin s = some w) (hr : rdyCnv s = true) :
    (tick s).cnv = ⟨true, w.data, w.k, 0#2⟩ := by
  rw [tick_cnv s hrst, hin]
  exact if_pos hr

end InsertedWord

/-- Settles O2: each of the three words stands at the output of its inserter, and a ready converter takes
it. -/
theorem insertedWordsStep : Obligations.InsertedWordsStep := by
  intro s ⟨hc, hrst⟩
  refine ⟨fun hst => ?idle, fun hst => ?ackK, fun hst => ?ackData⟩
  case idle =>
    have hout : txIdl s = some idleWord := idlOut_writeIdle hst
    have hoccurs : occurs .idleWord s = true := by simp [occurs, emitsIdle, hst]
    refine ⟨hout, idlInReady_writeIdle hst _, tick s, exec_of_occurs hc hoccurs, ?_, fun hr => ?_⟩
    · rw [tick_idl s hrst]
      cases rdyAin s with
      | true => exact idlNext_writeIdle hst
      | false => exact idlNext_stalled _ _
    · obtain ⟨hain, hcnv⟩ := rdyAin_eq_true_iff.1 hr
      exact tick_cnv_taken hrst ((txAin_copy hain).trans hout) hcnv
  case ackK =>
    have hacking : s.ain ≠ .copy := by simp [hst]
    have hout : txAin s = some ioackWord := by simp [txAin, ainOut, hst]
    have hoccurs : occurs .ioackWord s = true := by simp [occurs, emitsIoack, hst]
    exact ⟨hout, rdyAin_of_acking hacking, tick s, exec_of_occurs hc hoccurs,
      by rw [tick_ain s hrst, hst]; rfl, tick_idl_acking hrst hacking, tick_cnv_taken hrst hout⟩
  case ackData =>
    have hacking : s.ain ≠ .copy := by simp [hst]
    have hout : txAin s = some ackDataWord := by simp [txAin, ainOut, hst]
    have hoccurs : occurs .ackDataWord s = true := by simp [occurs, emitsAckData, hst]
    exact ⟨hout, rdyAin_of_acking hacking, tick s, exec_of_occurs hc hoccurs,
      by rw [tick_ain s hrst, hst]; rfl, tick_idl_acking hrst hacking, tick_cnv_taken hrst hout⟩

/-! ### The words between two idle words (rules R442, R445) -/

section Countdown
variable {b : Idl}

/-- One tick of COPY with a word offered. -/
theorem idlFeed_copy (hst : b.st = .copy) (n : Nat) (w : Word) (q : List Word) :
    idlFeed (n + 1) b (w :: q) =
      ((idlFeed n (idlNext b (some w) true) q).1, (idlFeed n (idlNext b (some w) true) q).2.1,
        w :: (idlFeed n (idlNext b (some w) true) q).2.2) := by
  rw [idlFeed_succ, idlInReady_copy hst, idlOut_copy hst]; rfl

/-- The tick of WRITE_IDLE takes no word. -/
theorem idlFeed_writeIdle (hst : b.st = .writeIdle) (n : Nat) (q : List Word) :
    idlFeed (n + 1) b q =
      ((idlFeed n ⟨.copy, 9999#14⟩ q).1, (idlFeed n ⟨.copy, 9999#14⟩ q).2.1,
        idleWord :: (idlFeed n ⟨.copy, 9999#14⟩ q).2.2) := by
  rw [idlFeed_succ, idlInReady_writeIdle hst, idlOut_writeIdle hst, idlNext_writeIdle hst]; rfl

/-- From a countdown of `c`, `c + 1` words without `eop` pass before the idle word: the countdown is tested
before it is decremented. -/
theorem idlFeed_countdown (ws q : List Word) (c : BitVec 14) (n : Nat) (hlen : ws.length = c.toNat + 1)
    (heop : ∀ v ∈ ws, v.eop = false) :
    idlFeed (n + ws.length) ⟨.copy, c⟩ (ws ++ q) =
      ((idlFeed n ⟨.writeIdle, 0#14⟩ q).1, (idlFeed n ⟨.writeIdle, 0#14⟩ q).2.1,
        ws ++ (idlFeed n ⟨.writeIdle, 0#14⟩ q).2.2) := by
  induction ws generalizing c with
  | nil => simp at hlen
  | cons w ws ih =>
    obtain ⟨hw, hws⟩ := List.forall_mem_cons.1 heop
    rw [List.length_cons, List.cons_append, ← Nat.add_assoc, idlFeed_copy rfl, idlNext_copy_some rfl, hw]
    by_cases hc : c = 0#14
    case pos =>
      have hnil : ws = [] := by simpa [hc] using hlen
      simp [hc, hnil]
    case neg =>
      have hrest : ws.length = (c - 1#14).toNat + 1 := by
        rw [List.length_cons] at hlen
        bv_omega
      simp [hc, ih (c - 1#14) hrest hws]

end Countdown

/-- Settles O54: the countdown from 9999 passes 10000 words, and the idle word sets it again. -/
theorem idlePeriodIsTenThousand : Obligations.IdlePeriodIsTenThousand := by
  intro ws rest w hlen heop
  have hperiod := idlFeed_countdown ws (w :: rest) 9999#14 2 hlen heop
  rw [hlen, idlFeed_writeIdle rfl 1, idlFeed_copy rfl 0] at hperiod
  rw [idlFeed_copy rfl 0]
  exact hperiod

end Sys2Proof.Machine

/-!
The word-to-character converter (rules R491, R492): its two steps, its tick in the core, and its characters
for any list of words.
-/
namespace Sys2Proof.Machine

/-! ### The converter's two steps (rule R491) -/

section Converter
variable {b : Cnv} {inp : Option Word} {r : Bool}

theorem cnvInReady_eq_true_iff : cnvInReady b r = true ↔ b.full = false ∨ b.idx = 3#2 ∧ r = true := by
  simp [cnvInReady]

@[simp] theorem cnvSent_stalled (b : Cnv) : cnvSent b false = b := by simp [cnvSent]

theorem cnvSent_empty (hb : b.full = false) (r : Bool) : cnvSent b r = b := by simp [cnvSent, hb]

theorem cnvNext_taken (hr : cnvInReady b r = true) (w : Word) :
    cnvNext b (some w) r = ⟨true, w.data, w.k, 0#2⟩ := if_pos hr

/-- Without a new word only a taken character changes the converter. -/
theorem cnvNext_sent (h : inp = none ∨ cnvInReady b r = false) : cnvNext b inp r = cnvSent b r := by
  cases inp with
  | none => rfl
  | some w =>
    have hr : cnvInReady b r = false := h.resolve_left (Option.some_ne_none w)
    exact if_neg (by simp [hr])

/-- A converter that holds a word and whose consumer takes nothing stands still. -/
theorem cnvNext_stalled (hfull : b.full = true) (inp : Option Word) : cnvNext b inp false = b := by
  rw [cnvNext_sent (.inr (by simp [cnvInReady, hfull])), cnvSent_stalled]

end Converter

/-- Settles O22: the converter takes a word or goes on with the one it holds. -/
theorem wordToCharsStep : Obligations.WordToCharsStep := by
  intro s ⟨hc, hrst⟩
  have hnext : (tick s).cnv = cnvNext s.cnv (txAin s) (rdyTin s) := tick_cnv s hrst
  refine ⟨rfl, cnvInReady_eq_true_iff, fun hempty hin => ⟨tick s, step_eq_tick hc, ?quiet⟩,
    fun hworks => ⟨tick s, exec_of_occurs hc (by simpa [occurs, cnvWorks] using hworks),
      fun w hin hr => tick_cnv_taken hrst hin hr, fun h => ?sent⟩⟩
  case quiet => rw [hnext, cnvNext_sent (.inl hin), cnvSent_empty hempty]
  case sent => rw [hnext, cnvNext_sent h]; simp [cnvSent]

/-! ### Any words (rule R492) -/

/-- One tick of a full converter before its last lane: that lane's character, and no word taken. -/
theorem cnvFeed_lane {i : BitVec 2} (hi : i ≠ 3#2) (n : Nat) (w : Word) (q : List Word) :
    (cnvFeed (n + 1) ⟨true, w.data, w.k, i⟩ q).2 =
      ((cnvFeed n ⟨true, w.data, w.k, i + 1#2⟩ q).2.1,
        ⟨lane w.data i.toNat, w.k.getLsbD i.toNat⟩ :: (cnvFeed n ⟨true, w.data, w.k, i + 1#2⟩ q).2.2) := by
  have hready : cnvInReady ⟨true, w.data, w.k, i⟩ true = false := by simp [cnvInReady, hi]
  have hsent : cnvSent ⟨true, w.data, w.k, i⟩ true = ⟨true, w.data, w.k, i + 1#2⟩ := by simp [cnvSent, hi]
  rw [cnvFeed_succ, hready, cnvNext_sent (.inr hready), hsent]
  rfl

/-- The four ticks of a held word: its characters in order, and the next word, if any, taken with the
last. -/
theorem cnvFeed_word (n : Nat) (w : Word) (q : List Word) :
    (cnvFeed (n + 4) ⟨true, w.data, w.k, 0#2⟩ q).2 =
      ((cnvFeed n (cnvNext ⟨true, w.data, w.k, 3#2⟩ q.head? true) q.tail).2.1,
        charsOf w ++ (cnvFeed n (cnvNext ⟨true, w.data, w.k, 3#2⟩ q.head? true) q.tail).2.2) := by
  rw [cnvFeed_lane (by decide), cnvFeed_lane (by decide), cnvFeed_lane (by decide)]
  rfl

/-- From a held word on, the characters of all words follow without a gap. -/
theorem cnvFeed_words (w : Word) (ws : List Word) :
    (cnvFeed (4 * (ws.length + 1)) ⟨true, w.data, w.k, 0#2⟩ ws).2 = ([], ((w :: ws).map charsOf).flatten) := by
  rw [Nat.mul_succ, cnvFeed_word]
  induction ws generalizing w with
  | nil => rfl
  | cons v ws ih =>
    have htaken : cnvNext ⟨true, w.data, w.k, 3#2⟩ (some v) true = ⟨true, v.data, v.k, 0#2⟩ := rfl
    rw [List.head?_cons, List.tail_cons, htaken, List.length_cons, Nat.mul_succ, cnvFeed_word, ih]
    rfl

/-- Settles O55: an empty converter takes the first word in a tick without a character, and holds one from
then on. -/
theorem converterOnWords : Obligations.ConverterOnWords := by
  intro ws b hempty
  have hready : cnvInReady b true = true := cnvInReady_eq_true_iff.2 (.inl hempty)
  have hout : cnvOut b = none := by simp [cnvOut, hempty]
  rw [cnvFeed_succ, hready, hout]
  cases ws with
  | nil => rfl
  | cons w ws =>
    rw [List.head?_cons, cnvNext_taken hready]
    exact cnvFeed_words w ws

end Sys2Proof.Machine

/-!
The two inserters of strobed sequences (rules R460 to R467, R480): the trigger inserter's two states and its
six characters, and the strobes in the core.
-/
namespace Sys2Proof.Machine

/-! ### The trigger inserter's two states (rules R462, R465 to R467) -/

section TriggerInserter
variable {b : Tin} {strobe mode r : Bool} {delay : Byte}

theorem tinOut_copy (hst : b.st = .copy) (inp : Option Chr) : tinOut b inp = inp := by
  simp [tinOut, hst]

theorem tinOut_send (hst : b.st = .send) (inp : Option Chr) :
    tinOut b inp = some (trigSeq b.mode b.delay b.i.toNat) := by
  simp [tinOut, hst]

theorem tinInReady_copy (hst : b.st = .copy) (r : Bool) : tinInReady b r = r := by
  simp [tinInReady, hst]

theorem tinInReady_send (hst : b.st = .send) (r : Bool) : tinInReady b r = false := by
  simp [tinInReady, hst]

theorem tinNext_quiet (hst : b.st = .copy) : tinNext b false delay mode r = b := by
  simp [tinNext, hst]

theorem tinNext_strobe (hst : b.st = .copy) : tinNext b true delay mode r = ⟨.send, 0#3, delay, mode⟩ := by
  simp [tinNext, hst]

/-- In SEND no pin of the host is read (rule R467). -/
theorem tinNext_send (hst : b.st = .send) :
    tinNext b strobe delay mode r =
      if r then if b.i = 5#3 then { b with i := 0#3, st := .copy } else { b with i := b.i + 1#3 } else b := by
  simp [tinNext, hst]

/-- The delay and the mode are kept for the whole sequence (rule R465). -/
theorem tinNext_send_operands (hst : b.st = .send) :
    (tinNext b strobe delay mode r).delay = b.delay ∧ (tinNext b strobe delay mode r).mode = b.mode := by
  rw [tinNext_send hst]
  split_ifs <;> exact ⟨rfl, rfl⟩

end TriggerInserter

/-- The six characters in both orders (rule R461). -/
theorem trigSeq_eq_list (mode : Bool) (d : Byte) {i : Nat} (hi : i ≤ 5) :
    some (trigSeq mode d i) =
      (if mode
        then [⟨0x9C#8, true⟩, ⟨0x5C#8, true⟩, ⟨0x5C#8, true⟩, ⟨d, false⟩, ⟨d, false⟩, ⟨d, false⟩]
        else [⟨0x5C#8, true⟩, ⟨0x9C#8, true⟩, ⟨0x9C#8, true⟩, ⟨d, false⟩, ⟨d, false⟩, ⟨d, false⟩])[i]? := by
  cases mode <;> interval_cases i <;> rfl

theorem tick_txOut (s : State) : (tick s).out.txOut = txTin s := by
  rw [tick_out]; rfl

/-- Settles O6: SEND offers the indexed character and counts it when it is taken. -/
theorem triggerCharacterStep : Obligations.TriggerCharacterStep := by
  intro s ⟨hc, hrst⟩ hst hi
  have hoccurs : occurs (if s.tin.mode then .trigSeqLinktrig s.tin.delay else .trigSeqNormal s.tin.delay) s =
      true := by
    cases hmode : s.tin.mode <;> simp [occurs, emitsTrigger, hst, hmode]
  have hready : rdyTin s = false := tinInReady_send hst _
  refine ⟨tick s, exec_of_occurs hc hoccurs, ?character, hready, fun hfull => ?held, ?operands⟩
  case character => rw [tick_txOut, txTin, tinOut_send hst]; exact trigSeq_eq_list _ _ hi
  case held => rw [tick_cnv s hrst, hready, cnvNext_stalled hfull]
  rw [tick_tin s hrst]
  obtain ⟨hdelay, hmode⟩ := tinNext_send_operands hst
  refine ⟨hdelay, hmode, ?counted⟩
  rw [tinNext_send hst]
  refine ⟨fun hr hlast => ?last, fun hr hmore => ?more, fun hr => ?stalled⟩
  case last => rw [if_pos hr, if_pos hlast]; exact ⟨rfl, rfl⟩
  case more => rw [if_pos hr, if_neg hmore]; exact ⟨rfl, hst⟩
  case stalled => rw [if_neg (by simp [hr])]

/-! ### The strobes in the core (rules R465, R467, R480) -/

section Strobes
variable {s : State} {h : HostIn}

theorem rdyAin_copy (hst : s.ain = .copy) : rdyAin s = rdyCnv s := by
  simp [rdyAin, ainInReady, hst]

/-- The trigger inserter in COPY is a wire (rule R462). -/
theorem tick_txOut_copy (hst : s.tin.st = .copy) : (tick s).out.txOut = txCnv s := by
  rw [tick_txOut, txTin, tinOut_copy hst]

/-- Host signals that the writer and the reassembler do not read change neither. -/
theorem tick_withHost_memories (hrst : s.inp.rst = false)
    (hwrt : ∀ c b r, wrtNext c b h r = wrtNext c b s.inp.host r)
    (hrsm : ∀ c b inp e, rsmNext c b inp e h = rsmNext c b inp e s.inp.host) :
    (tick (withHost s h)).wrt = (tick s).wrt ∧ (tick (withHost s h)).rsm = (tick s).rsm := by
  rw [tick_wrt s hrst, tick_wrt (withHost s h) hrst, tick_rsm s hrst, tick_rsm (withHost s h) hrst]
  exact ⟨hwrt _ _ _, hrsm _ _ _ _⟩

/-- Of the host signals the trigger inserter reads its strobe and the two operands. -/
theorem tick_tin_withHost (hrst : s.inp.rst = false) :
    (tick (withHost s h)).tin = tinNext s.tin h.trigStrobe h.trigDelay h.linktrigMode s.inp.txReady :=
  tick_tin (withHost s h) hrst

/-- Of the host signals the trigger-ack inserter reads its strobe. -/
theorem tick_ain_withHost (hrst : s.inp.rst = false) :
    (tick (withHost s h)).ain = ainNext s.ain h.trigAckStrobe (rdyCnv s) :=
  tick_ain (withHost s h) hrst

end Strobes

/-- Out of COPY the trigger-ack inserter does not read its strobe (rule R480). -/
theorem ainNext_acking {st : AinSt} (hst : st ≠ .copy) (strobe strobe' r : Bool) :
    ainNext st strobe r = ainNext st strobe' r := by
  cases st with
  | copy => exact absurd rfl hst
  | ackK => rfl
  | ackData => rfl

/-- Settles O29: each strobe reaches its own inserter, and that one only in COPY. -/
theorem hostStrobesStep : Obligations.HostStrobesStep := by
  refine ⟨fun s ⟨hc, hrst⟩ => ⟨fun hst hno => ?quietTrig, fun hst hno => ?quietAck⟩,
    fun d m s ⟨hc, hrst⟩ => ⟨?trig, ?ack⟩⟩
  case quietTrig =>
    refine ⟨tinInReady_copy hst _, tick s, step_eq_tick hc, ?_, tick_txOut_copy hst⟩
    rw [tick_tin s hrst, hno, tinNext_quiet hst]
  case quietAck =>
    refine ⟨txAin_copy hst, rdyAin_copy hst, tick s, step_eq_tick hc, ?_⟩
    rw [tick_ain s hrst, hno, hst]
    rfl
  case trig =>
    obtain ⟨hwrt, hrsm⟩ := tick_withHost_memories (h := pinTrigStrobe d m s.inp.host) hrst
      (fun _ _ _ => rfl) (fun _ _ _ _ => rfl)
    refine ⟨tick (withHost s (pinTrigStrobe d m s.inp.host)), rowTick_takes _ hc, fun hst => ?copy,
      fun hst => ?send, hwrt, ?ain, tick_withHost_framers _ _, hrsm, tick_withHost_receivers _ _⟩
    case copy =>
      exact ⟨(tick_tin_withHost hrst).trans (tinNext_strobe hst), tick_txOut_copy hst, tinInReady_copy hst _⟩
    case send =>
      rw [tick_tin_withHost hrst, tick_tin s hrst]
      exact ⟨(tinNext_send hst).trans (tinNext_send hst).symm, tinNext_send_operands hst⟩
    case ain => rw [tick_ain_withHost hrst, tick_ain s hrst]; rfl
  case ack =>
    obtain ⟨hwrt, hrsm⟩ := tick_withHost_memories (h := pinTrigAckStrobe s.inp.host) hrst
      (fun _ _ _ => rfl) (fun _ _ _ _ => rfl)
    refine ⟨tick (withHost s (pinTrigAckStrobe s.inp.host)), rowTick_takes _ hc, fun hst => ?copy,
      fun hst => ?acking, hwrt, ?tin, tick_withHost_framers _ _, hrsm, tick_withHost_receivers _ _⟩
    case copy =>
      refine ⟨?_, txAin_copy hst, rdyAin_copy hst⟩
      rw [tick_ain_withHost hrst, hst]
      rfl
    case acking =>
      rw [tick_ain_withHost hrst, tick_ain s hrst]
      exact ainNext_acking hst _ _ _
    case tin => rw [tick_tin_withHost hrst, tick_tin s hrst]; rfl

end Sys2Proof.Machine

/-!
The two readers of receive triggers and trigger-acks (rules R470 to R475, R485 to R488): the words each takes,
its fields and its pulse, and what stands still behind it.
-/
namespace Sys2Proof.Machine

/-! ### The trigger reader (rules R470 to R475) -/

theorem isTrig_iff {w : DWord} :
    isTrig w = true ↔ w.dcharK = true ∧ (w.dchar = trigIndic282 ∨ w.dchar = trigIndic284) := by
  simp [isTrig]

section TriggerReader
variable {b : Trd} {inp : Option DWord} {w : DWord}

/-- Out of COPY the reader takes whatever stands before it (rule R475). -/
theorem trdOut_reading (hst : b.st ≠ .copy) (inp : Option DWord) : trdOut b inp = none := by
  cases h : b.st with
  | copy => exact absurd h hst
  | readDelay | readLinktrig => simp [trdOut, h]

theorem trdInReady_reading (hst : b.st ≠ .copy) (inp : Option DWord) (r : Bool) :
    trdInReady b inp r = true := by
  cases h : b.st with
  | copy => exact absurd h hst
  | readDelay | readLinktrig => simp [trdInReady, h]

/-- A word of a trigger, which in COPY is an indicator, is taken and not forwarded. -/
theorem trd_consumes (h : b.st = .copy → isTrig w = true) (r : Bool) :
    trdOut b (some w) = none ∧ trdInReady b (some w) r = true := by
  by_cases hst : b.st = .copy
  case pos => simp [trdOut, trdInReady, hst, h hst]
  case neg => exact ⟨trdOut_reading hst _, trdInReady_reading hst _ _⟩

theorem trdNext_indicator (hst : b.st = .copy) (h : isTrig w = true) :
    trdNext b (some w) = { b with st := .readDelay, pulse := false } := by
  simp [trdNext, hst, h]

/-- No word but an indicator starts a trigger (rule R470). -/
theorem trdNext_transparent (hst : b.st = .copy) (h : ∀ w, inp = some w → isTrig w = false) :
    trdNext b inp = { b with pulse := false } := by
  cases inp with
  | none => exact trdNext_none b
  | some w => simp [trdNext, hst, h w rfl]

theorem trdNext_readDelay (hst : b.st = .readDelay) (w : DWord) :
    trdNext b (some w) = { b with delay := w.dchar, st := .readLinktrig, pulse := false } := by
  simp [trdNext, hst]

theorem trdNext_readLinktrig (hst : b.st = .readLinktrig) (w : DWord) :
    trdNext b (some w) = { b with linktrig := w.dchar, st := .copy, pulse := true } := by
  simp [trdNext, hst]

/-- The pulse follows the third word, and each field is written by its own word only (rule R474). -/
theorem trdNext_frame (b : Trd) (inp : Option DWord) :
    ((trdNext b inp).pulse = true ↔ b.st = .readLinktrig ∧ inp.isSome = true) ∧
      (b.st ≠ .readDelay → (trdNext b inp).delay = b.delay) ∧
      (b.st ≠ .readLinktrig → (trdNext b inp).linktrig = b.linktrig) := by
  cases inp with
  | none => simp
  | some w => cases hst : b.st <;> simp [trdNext, hst]

end TriggerReader

/-! ### The trigger-ack reader (rules R485 to R488) -/

theorem isIoack_iff {w : DWord} : isIoack w = true ↔ w.dcharK = true ∧ w.dchar = ioAck := by
  simp [isIoack]

theorem isAckData_iff {w : DWord} : isAckData w = true ↔ w.dcharK = false ∧ w.dchar = ackByte := by
  simp [isAckData]

section AckReader
variable {b : Ard} {inp : Option DWord} {w : DWord}

theorem readAck_of_ne_copy (hst : b.st ≠ .copy) : b.st = .readAck := by
  cases h : b.st with
  | copy => exact absurd h hst
  | readAck => rfl

@[simp] theorem ardOut_none (b : Ard) : ardOut b none = none := by
  simp [ardOut]

theorem ardOut_readAck (hst : b.st = .readAck) (inp : Option DWord) : ardOut b inp = none := by
  simp [ardOut, hst]

theorem ardInReady_readAck (hst : b.st = .readAck) (inp : Option DWord) (r : Bool) :
    ardInReady b inp r = true := by
  simp [ardInReady, hst]

/-- A word of an ack, which in COPY is a marker, is taken and not forwarded. -/
theorem ard_consumes (h : b.st = .copy → isIoack w = true) (r : Bool) :
    ardOut b (some w) = none ∧ ardInReady b (some w) r = true := by
  by_cases hst : b.st = .copy
  case pos => simp [ardOut, ardInReady, hst, h hst]
  case neg =>
    have hread := readAck_of_ne_copy hst
    exact ⟨ardOut_readAck hread _, ardInReady_readAck hread _ _⟩

theorem ardNext_marker (hst : b.st = .copy) (h : isIoack w = true) :
    ardNext b (some w) = ⟨.readAck, false⟩ := by
  simp [ardNext, hst, h]

/-- No word but a marker starts an ack (rule R485). -/
theorem ardNext_transparent (hst : b.st = .copy) (h : ∀ w, inp = some w → isIoack w = false) :
    ardNext b inp = ⟨.copy, false⟩ := by
  cases inp with
  | none => rw [ardNext_none, hst]
  | some w => simp [ardNext, hst, h w rfl]

theorem ardNext_readAck (hst : b.st = .readAck) (w : DWord) :
    ardNext b (some w) = ⟨.copy, isAckData w⟩ := by
  simp [ardNext, hst]

/-- The pulse follows the ack data word in READ_ACK, and nothing else (rules R486, R488). -/
theorem ardNext_pulse_iff (b : Ard) (inp : Option DWord) :
    (ardNext b inp).pulse = true ↔ b.st = .readAck ∧ ∃ w, inp = some w ∧ isAckData w = true := by
  cases inp with
  | none => simp
  | some w => cases hst : b.st <;> simp [ardNext, hst]

end AckReader

/-! ### The readers in the core (rules R470, R485, R522, R681) -/

section ReadersInCore
variable {s : State}

theorem rxArd_of_rxTrd_none (h : rxTrd s = none) : rxArd s = none := by
  rw [rxArd, h, ardOut_none]

/-- A word the readers take does not reach the classifier. -/
theorem tick_cls_of_rxArd_none (hrst : s.inp.rst = false) (h : rxArd s = none) : (tick s).cls = s.cls := by
  rw [tick_cls s hrst, clsTaken_of_none h, clsNext_none]

/-- Without a word of the trigger reader the ack reader only ends its pulse. -/
theorem tick_ard_of_rxTrd_none (hrst : s.inp.rst = false) (h : rxTrd s = none) :
    (tick s).ard = { s.ard with pulse := false } := by
  rw [tick_ard s hrst, h, ardNext_none]

end ReadersInCore

/-- Settles O12, by the reader's three states and, in COPY, by whether an indicator stands before it. -/
theorem triggerReadStep : Obligations.TriggerReadStep := by
  refine ⟨fun i w s ⟨hc, hrst⟩ hw hrow => ?consumed, fun s ⟨hc, hrst⟩ => ?any⟩
  case consumed =>
    have htrig : s.trd.st = .copy → isTrig w = true := by
      intro hst
      rcases hrow with ⟨-, hmark⟩ | ⟨-, -, hk, hch⟩ | ⟨-, -, hk, hch⟩
      · exact isTrig_iff.2 (hmark hst)
      · exact isTrig_iff.2 ⟨hk, .inl hch⟩
      · exact isTrig_iff.2 ⟨hk, .inr hch⟩
    have hoccurs : occurs i s = true := by
      rcases hrow with ⟨rfl, -⟩ | ⟨rfl, hst, hk, hch⟩ | ⟨rfl, hst, hk, hch⟩
      · cases hst : s.trd.st <;> simp [occurs, trdWorks, hst, hw, htrig]
      · simp [occurs, receivesTrig, hst, hw, hk, hch, trigIndic282]
      · simp [occurs, receivesTrig, hst, hw, hk, hch, trigIndic284]
    obtain ⟨hout, hready⟩ := trd_consumes htrig (rdyArd s)
    have hnone : rxTrd s = none := by rw [rxTrd, hw, hout]
    have hnext : (tick s).trd = trdNext s.trd (some w) := by rw [tick_trd s hrst, hw]
    refine ⟨hnone, by rw [rdyTrd, hw, hready], tick s, exec_of_occurs hc hoccurs,
      tick_ard_of_rxTrd_none hrst hnone, tick_cls_of_rxArd_none hrst (rxArd_of_rxTrd_none hnone),
      fun hst => ?copy, fun hst => ?readDelay, fun hst => ?readLinktrig⟩
    case copy => exact hnext.trans (trdNext_indicator hst (htrig hst))
    case readDelay => exact hnext.trans (trdNext_readDelay hst w)
    case readLinktrig =>
      rw [trdNext_readLinktrig hst] at hnext
      exact ⟨hnext, congrArg Trd.pulse hnext, (congrArg Trd.delay hnext :), congrArg Trd.linktrig hnext⟩
  case any =>
    have hnext : (tick s).trd = trdNext s.trd (rxDcd s) := tick_trd s hrst
    refine ⟨rfl, rfl, rfl, fun hst => ⟨trdOut_reading hst _, trdInReady_reading hst _ _⟩,
      fun hst hother => ?transparent, fun hn => ⟨tick s, step_eq_tick hc, by rw [hnext, hn, trdNext_none]⟩,
      tick s, step_eq_tick hc, ?frame⟩
    case transparent =>
      have htrig : ∀ w, rxDcd s = some w → isTrig w = false :=
        fun w hw => isTrig_eq_false_iff.2 (hother w hw)
      exact ⟨trdOut_transparent hst htrig, trdInReady_transparent _ hst htrig, tick s, step_eq_tick hc,
        hnext.trans (trdNext_transparent hst htrig)⟩
    case frame => rw [hnext]; exact trdNext_frame s.trd (rxDcd s)

/-- Settles O13, by the reader's two states and, in COPY, by whether a marker stands before it. -/
theorem triggerAckReadStep : Obligations.TriggerAckReadStep := by
  refine ⟨fun i w s ⟨hc, hrst⟩ hw hrow => ?consumed, fun s ⟨hc, hrst⟩ => ?any⟩
  case consumed =>
    have hack : s.ard.st = .copy → isIoack w = true := by
      intro hst
      rcases hrow with ⟨-, hmark⟩ | ⟨-, -, hmark⟩ | ⟨-, hread, -⟩
      · exact isIoack_iff.2 (hmark hst)
      · exact isIoack_iff.2 hmark
      · simp [hst] at hread
    have hoccurs : occurs i s = true := by
      rcases hrow with ⟨rfl, -⟩ | ⟨rfl, hst, -⟩ | ⟨rfl, hst, hdata⟩
      · cases hst : s.ard.st <;> simp [occurs, ardWorks, hst, hw, hack]
      · simp [occurs, receivesIoack, hst, hw, hack]
      · simp [occurs, receivesAckData, hst, hw, isAckData_iff.2 hdata]
    obtain ⟨hout, hready⟩ := ard_consumes hack (rdyCls s)
    have hnone : rxArd s = none := by rw [rxArd, hw, hout]
    have hnext : (tick s).ard = ardNext s.ard (some w) := by rw [tick_ard s hrst, hw]
    refine ⟨hnone, by rw [rdyArd, hw, hready], tick s, exec_of_occurs hc hoccurs,
      tick_cls_of_rxArd_none hrst hnone, fun hst => ?copy, fun hst => ?readAck⟩
    case copy => exact hnext.trans (ardNext_marker hst (hack hst))
    case readAck =>
      rw [ardNext_readAck hst] at hnext
      have hpulse : (outputs (tick s)).ackReceived = isAckData w := congrArg Ard.pulse hnext
      exact ⟨congrArg Ard.st hnext, by rw [hpulse]; exact isAckData_iff⟩
  case any =>
    have hnext : (tick s).ard = ardNext s.ard (rxTrd s) := tick_ard s hrst
    refine ⟨rfl, fun hst => ?readAck, fun hst hother => ?transparent,
      fun hn => ⟨tick s, step_eq_tick hc, tick_ard_of_rxTrd_none hrst hn⟩, tick s, step_eq_tick hc, ?pulse⟩
    case readAck =>
      have hread := readAck_of_ne_copy hst
      exact ⟨ardOut_readAck hread _, ardInReady_readAck hread _ _⟩
    case transparent =>
      have hack : ∀ w, rxTrd s = some w → isIoack w = false :=
        fun w hw => isIoack_eq_false_iff.2 (hother w hw)
      exact ⟨ardOut_transparent hst hack, ardInReady_transparent _ hst hack, tick s, step_eq_tick hc,
        hnext.trans (ardNext_transparent hst hack)⟩
    case pulse =>
      rw [hnext, ardNext_pulse_iff]
      simp only [isAckData_iff, ackByte]

end Sys2Proof.Machine

/-!
The packet framer (rules R501 to R506): its four states, its ticks in the core with the hand-over of its words
to the converter, and a whole packet.
-/
namespace Sys2Proof.Machine

/-! ### The four states (rules R501 to R504) -/

section Framer
variable {inp : Option Word} {r : Bool}

/-- Out of COPY the framer takes nothing from upstream. -/
theorem frmInReady_of_ne_copy {st : FrmSt} (hst : st ≠ .copy) (r : Bool) : frmInReady st r = false := by
  cases st with
  | copy => exact absurd rfl hst
  | idle | insertHeader | insertFooter => rfl

/-- COPY ends exactly with a taken word that has `eop` (rule R503). -/
theorem frmNext_copy_footer_iff :
    frmNext .copy inp r = .insertFooter ↔ r = true ∧ ∃ w, inp = some w ∧ w.eop = true := by
  constructor
  · intro h
    exact frmNext_leaves_copy (by simp [h])
  · rintro ⟨rfl, w, rfl, heop⟩
    simp [frmNext_copy_some, heop]

theorem frmNext_copy_stays (h : frmNext .copy inp r ≠ .insertFooter) : frmNext .copy inp r = .copy := by
  by_contra hleaves
  exact h (frmNext_copy_footer_iff.2 (frmNext_leaves_copy hleaves))

end Framer

/-! ### The framer in the core (rules R429, R442, R491, R502, R504) -/

section FramerTick
variable {s : State} {w : Word}

theorem rdyFrm_of_ne_copy (hst : s.frm ≠ .copy) : rdyFrm s = false := frmInReady_of_ne_copy hst _

theorem txFrm_of_st {st : FrmSt} (hst : s.frm = st) : txFrm s = frmOut st (txCin s) := by
  rw [txFrm, hst]

theorem tick_frm_of_st {st : FrmSt} (hrst : s.inp.rst = false) (hst : s.frm = st) :
    (tick s).frm = frmNext st (txCin s) (rdyIdl s) := by
  rw [tick_frm s hrst, hst]

/-- While the framer takes nothing the CRC inserter stands still. -/
theorem tick_cin_of_frm_ne_copy (hrst : s.inp.rst = false) (hst : s.frm ≠ .copy) : (tick s).cin = s.cin := by
  rw [tick_cin s hrst, rdyFrm_of_ne_copy hst, cinNext_stalled]

/-- Only in COPY does the idle inserter take words (rules R441, R442). -/
theorem rdyIdl_eq_true_iff : rdyIdl s = true ↔ s.idl.st = .copy ∧ rdyAin s = true := by
  cases h : s.idl.st <;> simp [rdyIdl, idlInReady, h]

/-- A word of the framer that the idle inserter takes is in the converter after the tick: both inserters
between them are in COPY. -/
theorem tick_cnv_of_txFrm (hrst : s.inp.rst = false) (hout : txFrm s = some w) (hr : rdyIdl s = true) :
    (tick s).cnv = ⟨true, w.data, w.k, 0#2⟩ := by
  obtain ⟨hidl, hrain⟩ := rdyIdl_eq_true_iff.1 hr
  obtain ⟨hain, hcnv⟩ := rdyAin_eq_true_iff.1 hrain
  have htxIdl : txIdl s = txFrm s := idlOut_copy hidl
  exact tick_cnv_taken hrst ((txAin_copy hain).trans (htxIdl.trans hout)) hcnv

/-- An idle word follows the last word of a packet (rule R442). -/
theorem tick_idl_of_txFrm_eop (hrst : s.inp.rst = false) (hout : txFrm s = some w) (heop : w.eop = true)
    (hr : rdyIdl s = true) : (tick s).idl.st = .writeIdle := by
  obtain ⟨hidl, hrain⟩ := rdyIdl_eq_true_iff.1 hr
  rw [tick_idl s hrst, hrain, idlNext_copy_leaves_iff hidl]
  exact .inr (.inl ⟨w, hout, heop⟩)

end FramerTick

/-- Settles O1: each marker word stands at the framer's output, and a ready idle inserter hands it to the
converter in the same tick. -/
theorem markerWordsStep : Obligations.MarkerWordsStep := by
  intro s ⟨hc, hrst⟩
  refine ⟨fun hst => ?header, fun hst => ?footer⟩
  case header =>
    have hne : s.frm ≠ .copy := by simp [hst]
    have hout : txFrm s = some startWord := txFrm_of_st hst
    have hoccurs : occurs .startWord s = true := by simp [occurs, emitsStart, hst]
    exact ⟨hout, rdyFrm_of_ne_copy hne, tick s, exec_of_occurs hc hoccurs, tick_frm_of_st hrst hst,
      tick_cin_of_frm_ne_copy hrst hne, tick_cnv_of_txFrm hrst hout⟩
  case footer =>
    have hne : s.frm ≠ .copy := by simp [hst]
    have hout : txFrm s = some endWord := txFrm_of_st hst
    have hoccurs : occurs .endWord s = true := by simp [occurs, emitsEnd, hst]
    exact ⟨hout, rdyFrm_of_ne_copy hne, tick s, exec_of_occurs hc hoccurs, tick_frm_of_st hrst hst,
      tick_cin_of_frm_ne_copy hrst hne,
      fun hr => ⟨tick_cnv_of_txFrm hrst hout hr, tick_idl_of_txFrm_eop hrst hout rfl hr⟩⟩

/-- Settles O23, state by state: the tick of the framer is its step on the CRC inserter's word. -/
theorem framePacketStep : Obligations.FramePacketStep := by
  intro s ⟨hc, hrst⟩
  refine ⟨fun hst hin => ?quiet,
    fun hworks => ⟨tick s, exec_of_occurs hc (by simpa [occurs, frmWorks] using hworks),
      fun hst => ?idle, fun hst => ?header, fun hst => ?copy, fun hst => ?footer⟩⟩
  case quiet =>
    refine ⟨txFrm_of_st hst, rdyFrm_of_ne_copy (by simp [hst]), tick s, step_eq_tick hc, ?_⟩
    rw [tick_frm_of_st hrst hst, hin]
    rfl
  case idle =>
    have hin : (txCin s).isSome = true := hworks.resolve_left (absurd hst)
    refine ⟨txFrm_of_st hst, rdyFrm_of_ne_copy (by simp [hst]), ?_⟩
    rw [tick_frm_of_st hrst hst]
    exact if_pos hin
  case header =>
    exact ⟨txFrm_of_st hst, rdyFrm_of_ne_copy (by simp [hst]), tick_frm_of_st hrst hst⟩
  case copy =>
    refine ⟨txFrm_of_st hst, by rw [rdyFrm, hst]; rfl, ?_⟩
    rw [tick_frm_of_st hrst hst]
    exact ⟨frmNext_copy_footer_iff, frmNext_copy_stays⟩
  case footer =>
    exact ⟨txFrm_of_st hst, rdyFrm_of_ne_copy (by simp [hst]), tick_frm_of_st hrst hst⟩

/-! ### A whole packet (rules R505, R506) -/

/-- A word of a packet as it leaves the framer: `eop` stays behind (rule R503). -/
def bodyWord (w : Data × Marks) : Word := ⟨w.1, w.2, false⟩

/-- The tick that notices a packet takes and offers nothing (rule R501). -/
theorem frmFeed_idle (n : Nat) (w : Word) (q : List Word) :
    frmFeed (n + 1) .idle (w :: q) = frmFeed n .insertHeader (w :: q) := rfl

/-- The header's tick takes no word (rule R502). -/
theorem frmFeed_insertHeader (n : Nat) (q : List Word) :
    frmFeed (n + 1) .insertHeader q =
      ((frmFeed n .copy q).1, (frmFeed n .copy q).2.1, startWord :: (frmFeed n .copy q).2.2) := rfl

/-- One tick of COPY with a word offered (rule R503). -/
theorem frmFeed_copy (n : Nat) (w : Word) (q : List Word) :
    frmFeed (n + 1) .copy (w :: q) =
      ((frmFeed n (if w.eop then .insertFooter else .copy) q).1,
        (frmFeed n (if w.eop then .insertFooter else .copy) q).2.1,
        ⟨w.data, w.k, false⟩ :: (frmFeed n (if w.eop then .insertFooter else .copy) q).2.2) := rfl

/-- The footer's tick takes no word (rule R504). -/
theorem frmFeed_insertFooter (q : List Word) : frmFeed 1 .insertFooter q = (.idle, q, [endWord]) := rfl

/-- COPY passes the words of a packet, then the footer ends it. -/
theorem frmFeed_packet (w : Data × Marks) (ws : List (Data × Marks)) (rest : List Word) :
    frmFeed (ws.length + 2) .copy (asPacket (w :: ws) ++ rest) =
      (.idle, rest, (w :: ws).map bodyWord ++ [endWord]) := by
  induction ws generalizing w with
  | nil => exact (frmFeed_copy 1 ⟨w.1, w.2, true⟩ rest).trans (by rw [if_pos rfl, frmFeed_insertFooter]; rfl)
  | cons v ws ih =>
    rw [asPacket_cons, List.cons_append, List.length_cons, frmFeed_copy, if_neg (by simp), ih]
    rfl

/-- A packet begins with its first word, whatever follows. -/
theorem asPacket_eq_cons (w : Data × Marks) (ws : List (Data × Marks)) :
    ∃ v q, asPacket (w :: ws) = v :: q := by
  cases ws with
  | nil => exact ⟨_, _, rfl⟩
  | cons u ws => exact ⟨_, _, asPacket_cons w u ws⟩

/-- Settles O53: one tick in IDLE, one for the header, then COPY and the footer. -/
theorem framerOnAPacket : Obligations.FramerOnAPacket := by
  intro ws rest hws
  obtain ⟨w, ws, rfl⟩ := List.exists_cons_of_ne_nil hws
  obtain ⟨v, q, hpacket⟩ := asPacket_eq_cons w ws
  calc frmFeed ((w :: ws).length + 3) .idle (asPacket (w :: ws) ++ rest)
      = frmFeed (ws.length + 3) .insertHeader (asPacket (w :: ws) ++ rest) := by
        rw [hpacket, List.cons_append]
        exact frmFeed_idle _ _ _
    _ = (.idle, rest, startWord :: ((w :: ws).map bodyWord ++ [endWord])) := by
        rw [frmFeed_insertHeader, frmFeed_packet]

end Sys2Proof.Machine

/-!
The classifier at idle words, markers and misplaced words (rules R526 to R533), and over a whole packet
(rule R537).
-/
namespace Sys2Proof.Machine

/-! ### One word (rules R526 to R529, R533) -/

section ClassifiedWord
variable {c : Config} {b : Cls} {w : DWord}

theorem isStart_of_isEnd (h : isEnd w = true) : isStart w = false :=
  Bool.eq_false_of_not_eq_true fun hs => by simp [isEnd_of_isStart hs] at h

/-- An idle word changes nothing, in every state (rule R526). -/
theorem clsNext_idle (hidle : isIdle w = true) : clsNext c b (some w) = b := by
  have hclass : classOf w = .idle := by simp [classOf, hidle]
  cases hst : b.st with
  | scan => simp [clsNext, hst, clsScan, hclass]
  | type => simp [clsNext, hst, clsType, hclass]
  | payload => exact clsNext_payload_idle hst hidle

theorem framingBad_idle (hidle : isIdle w = true) : framingBad c b w = false := by
  simp [framingBad, classOf, hidle]

theorem clsError_some (c : Config) (b : Cls) (w : DWord) : clsError c b (some w) = framingBad c b w := rfl

/-- The five causes of a decode error (rule R533). -/
theorem framingBad_iff :
    framingBad c b w = true ↔ isIdle w = false ∧
      ((b.st = .scan ∧ isEnd w = true) ∨
        (b.st = .type ∧ (isStart w = true ∨ isEnd w = true ∨ typeOf c w = none)) ∨
        (b.st = .payload ∧ isStart w = true)) := by
  cases hidle : isIdle w with
  | true => simp [framingBad_idle hidle]
  | false =>
    cases hst : b.st with
    | scan => simp [framingBad_scan hst hidle]
    | type => simp [framingBad_type hst hidle, or_assoc]
    | payload => simp [framingBad_payload hst hidle]

/-- In TYPE a misplaced word ends the packet before it began, but for a start marker (rule R528). -/
theorem clsNext_type_misplaced (hst : b.st = .type) (hidle : isIdle w = false)
    (hbad : framingBad c b w = true) :
    clsNext c b (some w) = if isStart w then b else { b with st := .scan } := by
  rcases classOf_cases hidle with ⟨hc, hs, he⟩ | ⟨hc, hs, he⟩ | ⟨hc, hs, he⟩
  case inl | inr.inl => simp [clsNext, clsType, hst, hc, hs]
  case inr.inr =>
    have hunknown : typeOf c w = none := by simpa [framingBad_type hst hidle, hs, he] using hbad
    simp [clsNext, clsType, hst, hc, hs, hunknown]

end ClassifiedWord

/-! ### A whole packet (rule R537) -/

section Packet
variable {c : Config} {b : Cls} {w stop : DWord}

/-- The word a classifier holds, as the beginning of what it has yet to deliver. -/
def clsPending (b : Cls) : List (Data × Marks) := if b.hv then [(b.hData, b.hK)] else []

theorem clsFeed_cons (c : Config) (b : Cls) (w : DWord) (ws : List DWord) :
    clsFeed c b (w :: ws) =
      ((clsFeed c (clsNext c b (some w)) ws).1,
        ((clsEmit b (some w)).map fun e => (b.port, e)).toList ++
          (clsFeed c (clsNext c b (some w)) ws).2.1,
        framingBad c b w :: (clsFeed c (clsNext c b (some w)) ws).2.2) := rfl

/-- An idle word in the stream adds a tick without an error, and nothing else. -/
theorem clsFeed_idle (hidle : isIdle w = true) (ws : List DWord) :
    clsFeed c b (w :: ws) =
      ((clsFeed c b ws).1, (clsFeed c b ws).2.1, false :: (clsFeed c b ws).2.2) := by
  rw [clsFeed_cons, clsNext_idle hidle, clsEmit_idle hidle, framingBad_idle hidle]
  rfl

/-- The classifier takes a word stream as it takes the stream without its idle words. -/
theorem clsFeed_filter (ws : List DWord) (b : Cls) :
    (clsFeed c b ws).1 = (clsFeed c b (ws.filter fun w => !isIdle w)).1 ∧
    (clsFeed c b ws).2.1 = (clsFeed c b (ws.filter fun w => !isIdle w)).2.1 ∧
    ((∀ e ∈ (clsFeed c b (ws.filter fun w => !isIdle w)).2.2, e = false) →
      (clsFeed c b ws).2.2 = List.replicate ws.length false) := by
  induction ws generalizing b with
  | nil => exact ⟨rfl, rfl, fun _ => rfl⟩
  | cons w ws ih =>
    cases hidle : isIdle w with
    | true =>
      obtain ⟨hstate, hout, herror⟩ := ih b
      rw [List.filter_cons_of_neg (by simp [hidle]), clsFeed_idle hidle]
      exact ⟨hstate, hout, fun h => congrArg (false :: ·) (herror h)⟩
    | false =>
      obtain ⟨hstate, hout, herror⟩ := ih (clsNext c b (some w))
      rw [List.filter_cons_of_pos (by simp [hidle]), clsFeed_cons, clsFeed_cons]
      refine ⟨hstate, congrArg (_ ++ ·) hout, fun h => ?_⟩
      obtain ⟨hfirst, hrest⟩ := List.forall_mem_cons.1 h
      exact congrArg₂ List.cons hfirst (herror hrest)

/-- In PAYLOAD the words are delivered one word late, and the end marker sends the last of them on (rule
R529). -/
theorem clsFeed_payload (vs : List DWord) (b : Cls) (hst : b.st = .payload)
    (hvs : ∀ v ∈ vs, isIdle v = false ∧ isStart v = false ∧ isEnd v = false)
    (hidle : isIdle stop = false) (hstop : isEnd stop = true) :
    (clsFeed c b (vs ++ [stop])).2 =
      ((asPacket (clsPending b ++ vs.map fun v => (v.data, v.k))).map (fun w => (b.port, w)),
        List.replicate (vs.length + 1) false) ∧
    (clsFeed c b (vs ++ [stop])).1.st = .scan ∧ (clsFeed c b (vs ++ [stop])).1.hv = false := by
  induction vs generalizing b with
  | nil =>
    have hstart : isStart stop = false := isStart_of_isEnd hstop
    rw [List.nil_append, clsFeed_cons, clsNext_payload hst hidle, clsEmit_payload hst hidle,
      framingBad_payload hst hidle]
    cases h : b.hv <;> simp [clsFeed, clsPending, h, asPacket, hstart, hstop]
  | cons v vs ih =>
    obtain ⟨⟨hvidle, hvstart, hvend⟩, hrest⟩ := List.forall_mem_cons.1 hvs
    obtain ⟨hout, hstate⟩ := ih { b with hData := v.data, hK := v.k, hv := true } hst hrest
    rw [List.cons_append, clsFeed_cons, clsNext_payload hst hvidle, clsEmit_payload hst hvidle,
      framingBad_payload hst hvidle, hvstart, hvend]
    refine ⟨?_, hstate⟩
    simp only [Bool.false_eq_true, if_false, hout]
    cases h : b.hv <;> simp [clsPending, h, asPacket, List.replicate_succ]

/-- The classifier at the beginning of a packet's payload (rule R528). -/
def clsOpened (b : Cls) (p : Port) : Cls := { b with port := p, hv := false, st := .payload }

/-- From SCAN a start marker and a known type lead into PAYLOAD on the type's port, with nothing emitted and
nothing held (rules R527, R528). -/
theorem clsFeed_opening {start ty : DWord} {p : Port} (hst : b.st = .scan)
    (hsidle : isIdle start = false) (hstart : isStart start = true) (htidle : isIdle ty = false)
    (hp : typeOf c ty = some p) (ws : List DWord) :
    clsFeed c b (start :: ty :: ws) =
      ((clsFeed c (clsOpened b p) ws).1, (clsFeed c (clsOpened b p) ws).2.1,
        false :: false :: (clsFeed c (clsOpened b p) ws).2.2) := by
  have hscan : clsNext c b (some start) = { b with st := .type } := by
    rw [clsNext_scan hst hsidle, if_pos hstart]
  have hgood : framingBad c b start = false := by
    rw [framingBad_scan hst hsidle, isEnd_of_isStart hstart]
  have hgoodType : framingBad c { b with st := .type } ty = false := by
    rw [framingBad_type rfl htidle, isStart_of_typeOf hp, isEnd_of_typeOf hp, hp]
    rfl
  rw [clsFeed_cons, hscan, hgood, clsEmit_outside_payload (by simp [hst]), clsFeed_cons,
    clsNext_type_known rfl htidle hp, hgoodType, clsEmit_outside_payload (by simp)]
  rfl

end Packet

/-- Settles O56: without its idle words the stream is the packet, and the classifier takes that through
TYPE and PAYLOAD back to SCAN. -/
theorem classifierOnAPacket : Obligations.ClassifierOnAPacket := by
  intro c b ws start ty stop vs p hst hpacket hstart _ _ hp hstop hvs
  have hidle : ∀ w ∈ start :: ty :: vs ++ [stop], isIdle w = false := by
    intro w hw
    rw [← hpacket] at hw
    simpa using List.of_mem_filter hw
  simp only [List.cons_append, List.forall_mem_cons, List.forall_mem_append] at hidle
  obtain ⟨hsidle, htidle, hvidle, heidle, -⟩ := hidle
  obtain ⟨hstate, hout, herror⟩ := clsFeed_filter (c := c) ws b
  obtain ⟨hbody, hscan, hnone⟩ := clsFeed_payload (c := c) vs (clsOpened b p) rfl
    (fun v hv => ⟨hvidle v hv, hvs v hv⟩) heidle hstop
  rw [hpacket, List.cons_append, List.cons_append,
    clsFeed_opening hst hsidle hstart htidle hp] at hstate hout herror
  rw [hstate, hout]
  exact ⟨by rw [hbody]; rfl, herror (by simp [hbody]), hscan, hnone⟩

/-! ### The classifier and what stands behind it in the core (rules R522, R526, R533, R538) -/

section CoreTick
variable {s : State} {w : DWord}

theorem rxPort_outside_payload (hst : s.cls.st ≠ .payload) (p : Port) : rxPort s p = none := by
  simp [rxPort, clsEmit_outside_payload hst]

theorem clsTaken_eq_some_iff : clsTaken s = some w ↔ rdyCls s = true ∧ rxArd s = some w := by
  simp [clsTaken]

/-- A running tick of the classifier on a word it takes: its step, its error and its emitted word. -/
theorem tick_taken (hrst : s.inp.rst = false) (htaken : clsTaken s = some w) :
    (tick s).cls = clsNext s.cfg s.cls (some w) ∧
      (tick s).out.decodeError = framingBad s.cfg s.cls w ∧
      rxPort s s.cls.port = clsEmit s.cls (some w) := by
  rw [tick_cls s hrst, tick_decodeError, rxPort_selected, htaken]
  exact ⟨rfl, rfl, rfl⟩

/-- With an idle word at its input, taken or not, the classifier stands still and emits nothing (rule
R526). -/
theorem tick_idleWord (hrst : s.inp.rst = false) (hw : rxArd s = some w) (hidle : isIdle w = true) :
    (tick s).cls = s.cls ∧ (tick s).out.decodeError = false ∧ ∀ p, rxPort s p = none := by
  cases hr : rdyCls s with
  | false =>
    have htaken := clsTaken_of_stalled hr
    rw [tick_cls s hrst, tick_decodeError, htaken]
    exact ⟨rfl, rfl, fun p => by simp [rxPort, htaken]⟩
  | true =>
    have htaken := clsTaken_of_ready hw hr
    rw [tick_cls s hrst, tick_decodeError, htaken]
    exact ⟨clsNext_idle hidle, framingBad_idle hidle, fun p => by simp [rxPort, htaken, clsEmit_idle hidle]⟩

/-- While no port emits, the checkers and the consumers behind them stand still (rule R17). -/
theorem tick_quietPorts (hrst : s.inp.rst = false) (hports : ∀ p, rxPort s p = none) :
    (tick s).chkHb = s.chkHb ∧ (tick s).chkCmd = s.chkCmd ∧ (tick s).hbr = s.hbr ∧
      (tick s).tck = s.tck ∧ (tick s).rsm.mem = s.rsm.mem ∧ (tick s).rsm.wcount = s.rsm.wcount ∧
      (tick s).rsm.wr = s.rsm.wr ∧ (tick s).rsm.slotLen = s.rsm.slotLen := by
  have hhb : rxHb s = none := by rw [rxHb, hports, chkOut_none]
  have hcmd : rxCmd s = none := by rw [rxCmd, hports, chkOut_none]
  rw [tick_chkHb s hrst, tick_chkCmd s hrst, tick_hbr s hrst, tick_tck s hrst, tick_rsm s hrst, hhb, hcmd]
  simp [hports]

theorem tick_streamOut (s : State) : (tick s).out.streamOut = rxPort s .stream := by
  rw [tick_out]; rfl

theorem decodeError_iff :
    decodeError s = true ↔
      rdyCls s = true ∧ ∃ w, rxArd s = some w ∧ framingBad s.cfg s.cls w = true := by
  unfold decodeError
  constructor
  · intro h
    cases htaken : clsTaken s with
    | none => simp [htaken] at h
    | some w =>
      rw [htaken] at h
      obtain ⟨hr, hw⟩ := clsTaken_eq_some_iff.1 htaken
      exact ⟨hr, w, hw, h⟩
  · rintro ⟨hr, w, hw, hbad⟩
    rw [clsTaken_of_ready hw hr]
    exact hbad

end CoreTick

/-- Settles O7: both rows take place on an idle word, and their tick leaves the classifier still and its
ports quiet. -/
theorem idleWordsRemoved : Obligations.IdleWordsRemoved := by
  intro i w s ⟨hc, hrst⟩ hw hk hlane hrow
  have hlane0 : lane w.data 0 = idleComma := hlane
  have hidle : isIdle w = true := by simp [isIdle, isIdleRaw, hk, hlane0]
  have hoccurs : occurs i s = true := by
    rcases hrow with rfl | rfl
    · simp [occurs, receivesIdle, clsSees_eq hw, hidle]
    · simp [occurs, dropsIdle, clsSees_eq hw, hidle]
  obtain ⟨hcls, herror, hports⟩ := tick_idleWord hrst hw hidle
  obtain ⟨hhb, hcmd, hbehind⟩ := tick_quietPorts hrst hports
  exact ⟨tick s, exec_of_occurs hc hoccurs, hcls, herror, (tick_streamOut s).trans (hports .stream), hports,
    hhb, hcmd, hbehind⟩

/-- Settles O8: a marker's row is the tick of the classifier's arm for it in its state. -/
theorem packetMarkersStep : Obligations.PacketMarkersStep := by
  intro w s ⟨hc, hrst⟩ hw hidle hr hk
  obtain ⟨hcls, herror, hport⟩ := tick_taken hrst (clsTaken_of_ready hw hr)
  refine ⟨fun hchar => ?start, fun hchar => ?stop⟩
  case start =>
    have hs : isStart w = true := by simp [isStart, hk, hchar, pakStart]
    have he : isEnd w = false := isEnd_of_isStart hs
    have hoccurs : occurs .rxStart s = true := by
      simp [occurs, receivesStart, clsSees_eq hw, classOf, hidle, hs]
    refine ⟨tick s, exec_of_occurs hc hoccurs, tick_streamOut s, ?_⟩
    rw [hcls, herror, hport]
    refine ⟨fun hst => ?scan, fun hst => ?type, fun hst => ?payload⟩
    case scan =>
      rw [clsNext_scan hst hidle, framingBad_scan hst hidle, if_pos hs]
      exact ⟨rfl, he, rxPort_outside_payload (by simp [hst])⟩
    case type =>
      have hbad : framingBad s.cfg s.cls w = true := by simp [framingBad_type hst hidle, hs]
      rw [clsNext_type_misplaced hst hidle hbad, if_pos hs]
      exact ⟨rfl, hbad, rxPort_outside_payload (by simp [hst])⟩
    case payload =>
      rw [clsNext_payload hst hidle, framingBad_payload hst hidle, clsEmit_payload hst hidle, if_pos hs, hs]
      exact ⟨rfl, rfl, rfl⟩
  case stop =>
    have he : isEnd w = true := by simp [isEnd, hk, hchar, pakEnd]
    have hs : isStart w = false := isStart_of_isEnd he
    have hoccurs : occurs .rxEnd s = true := by
      simp [occurs, receivesEnd, clsSees_eq hw, classOf, hidle, hs, he]
    refine ⟨tick s, exec_of_occurs hc hoccurs, tick_streamOut s, ?_⟩
    rw [hcls, herror, hport]
    refine ⟨fun hst => ?scan, fun hst => ?type, fun hst => ?payload⟩
    case scan =>
      rw [clsNext_scan hst hidle, framingBad_scan hst hidle, hs]
      exact ⟨rfl, he, rxPort_outside_payload (by simp [hst])⟩
    case type =>
      have hbad : framingBad s.cfg s.cls w = true := by simp [framingBad_type hst hidle, he]
      rw [clsNext_type_misplaced hst hidle hbad, hs]
      exact ⟨rfl, hbad, rxPort_outside_payload (by simp [hst])⟩
    case payload =>
      rw [clsNext_payload hst hidle, framingBad_payload hst hidle, clsEmit_payload hst hidle, hs, he]
      exact ⟨rfl, rfl, rfl⟩

/-- Settles O15: the pulse is the framing error of the word taken, and that word's row is the tick of the
classifier's arm for it in its state. -/
theorem framingErrorStep : Obligations.FramingErrorStep := by
  intro s ⟨hc, hrst⟩
  refine ⟨⟨tick s, step_eq_tick hc, tick_decodeError s⟩, ?causes, fun herr => ?step,
    fun w hk => typeOf_of_mark hk⟩
  case causes => simp only [decodeError_iff, framingBad_iff]
  case step =>
    obtain ⟨hr, w, hw, hbad⟩ := decodeError_iff.1 herr
    obtain ⟨hidle, -⟩ := framingBad_iff.1 hbad
    obtain ⟨hcls, herror, hport⟩ := tick_taken hrst (clsTaken_of_ready hw hr)
    have hoccurs : occurs .framingError s = true := (clsSees_eq hw _).trans hbad
    refine ⟨w, tick s, hw, exec_of_occurs hc hoccurs, herror.trans hbad, fun p => rxPort_other, ?_⟩
    rw [hcls, hport]
    refine ⟨fun hst => ?scan, fun hst => ?type, fun hst => ?payload⟩
    case scan =>
      have he : isEnd w = true := (framingBad_scan hst hidle).symm.trans hbad
      rw [clsNext_scan hst hidle, isStart_of_isEnd he]
      exact ⟨rfl, clsEmit_outside_payload (by simp [hst]) _⟩
    case type =>
      exact ⟨clsNext_type_misplaced hst hidle hbad, clsEmit_outside_payload (by simp [hst]) _⟩
    case payload =>
      have hs : isStart w = true := (framingBad_payload hst hidle).symm.trans hbad
      rw [clsNext_payload hst hidle, clsEmit_payload hst hidle, if_pos hs, hs]
      exact ⟨rfl, rfl⟩

end Sys2Proof.Machine

/-!
The command/test packet writer (rules R601 to R610): its step in each state, its tick in the core, the host's
strobes and write ports, and what it sends after a start.
-/
namespace Sys2Proof.Machine

/-! ### The step in each state (rules R603, R605 to R607) -/

section Writer
variable {c : Config} {b : Wrt} {startCmd startTest : Bool}

/-- In IDLE the writer has no word, so its consumer's readiness does not matter. -/
theorem wrtRun_idle (hst : b.st = .idle) (r : Bool) :
    wrtRun c b startCmd startTest r = wrtStart c b startCmd startTest := by
  simp [wrtRun, hst]

theorem wrtRun_stalled (hst : b.st ≠ .idle) : wrtRun c b startCmd startTest false = b := by
  cases h : b.st with
  | idle => exact absurd h hst
  | cmd | testType | testData => simp [wrtRun, h]

theorem wrtRun_cmd (hst : b.st = .cmd) :
    wrtRun c b startCmd startTest true =
      if wrtAtLast c b then { b with idx := 0, st := .idle } else { b with idx := incAt c.lenBits b.idx } := by
  simp [wrtRun, hst]

theorem wrtRun_testType (hst : b.st = .testType) :
    wrtRun c b startCmd startTest true = { b with n := 0#12, st := .testData } := by
  simp [wrtRun, hst]

theorem wrtRun_testData (hst : b.st = .testData) :
    wrtRun c b startCmd startTest true =
      if b.n = testLast then { b with n := 0#12, st := .idle } else { b with n := b.n + 4#12 } := by
  simp [wrtRun, hst]

/-- Outside IDLE the start strobes are not read (rule R603). -/
theorem wrtRun_ignores_strobes (hst : b.st ≠ .idle) (startCmd' startTest' r : Bool) :
    wrtRun c b startCmd startTest r = wrtRun c b startCmd' startTest' r := by
  cases r with
  | false => rw [wrtRun_stalled hst, wrtRun_stalled hst]
  | true =>
    cases h : b.st with
    | idle => exact absurd h hst
    | cmd => rw [wrtRun_cmd h, wrtRun_cmd h]
    | testType => rw [wrtRun_testType h, wrtRun_testType h]
    | testData => rw [wrtRun_testData h, wrtRun_testData h]

theorem wrtStart_cmd (hlen : b.len ≠ 0) :
    wrtStart c b true startTest = { b with curLen := min b.len c.bufWords, idx := 0, st := .cmd } := by
  simp [wrtStart, hlen]

/-- Where no command packet starts, `start_test` alone decides. -/
theorem wrtStart_noCmd (hno : ¬ (startCmd = true ∧ b.len ≠ 0)) :
    wrtStart c b startCmd startTest = if startTest then { b with n := 0#12, st := .testType } else b := by
  simp [wrtStart, hno]

/-- The wires of rule R605 do not wrap on a packet that the buffer holds. -/
theorem wrtAtLast_eq (hidx : b.idx < b.curLen) (hlen : b.curLen ≤ c.bufWords) :
    wrtAtLast c b = decide (b.idx = b.curLen - 1) := by
  have hwidth := lenBits_bound c
  rw [wrtAtLast, decAt_pos _ _ (by omega) (by omega), beq_eq_decide]

/-- A command word taken: the packet ends, or its next word follows (rule R605). -/
theorem wrtRun_cmd_inPacket (hst : b.st = .cmd) (hidx : b.idx < b.curLen) (hlen : b.curLen ≤ c.bufWords) :
    wrtRun c b startCmd startTest true =
      if b.idx = b.curLen - 1 then { b with idx := 0, st := .idle } else { b with idx := b.idx + 1 } := by
  have hwidth := lenBits_bound c
  have hsucc : incAt c.lenBits b.idx = b.idx + 1 := Nat.mod_eq_of_lt (by omega)
  simp only [wrtRun_cmd hst, wrtAtLast_eq hidx hlen, hsucc, decide_eq_true_eq]

@[simp] theorem wrtNext_curLen (pins : HostIn) (r : Bool) :
    (wrtNext c b pins r).curLen = (wrtRun c b pins.startCmd pins.startTest r).curLen := rfl

@[simp] theorem wrtNext_n (pins : HostIn) (r : Bool) :
    (wrtNext c b pins r).n = (wrtRun c b pins.startCmd pins.startTest r).n := rfl

/-- Pins that agree at the write ports, and from which the writer runs alike, give the same next state. -/
theorem wrtNext_congr {h k : HostIn} {r : Bool}
    (hrun : wrtRun c b h.startCmd h.startTest r = wrtRun c b k.startCmd k.startTest r)
    (hbuf : ∀ buf, bufNext c buf h.bufWe h.bufAddr h.bufWdata = bufNext c buf k.bufWe k.bufAddr k.bufWdata)
    (hwe : h.lenWe = k.lenWe) (hdata : h.lenWdata = k.lenWdata) :
    wrtNext c b h r = wrtNext c b k r := by
  simp only [wrtNext, hrun, hbuf, hwe, hdata]

/-- The write port of the buffer (rule R601). -/
theorem memRead_bufNext_write (buf : Memory) (a : Nat) (v : Data) (i : Nat) :
    memRead (bufNext c buf true a v) i = if i = a ∧ a < c.bufWords then some v else memRead buf i := by
  by_cases ha : a < c.bufWords
  case neg => simp [bufNext, ha]
  case pos =>
    by_cases hi : i = a
    · subst hi
      simp [bufNext, ha, memRead_memWrite_same]
    · simp [bufNext, ha, hi, memRead_memWrite_other _ _ _ _ hi]

theorem bufNext_outside {a : Nat} (ha : c.bufWords ≤ a) (buf : Memory) (we : Bool) (v : Data) :
    bufNext c buf we a v = buf := by
  simp [bufNext, Nat.not_lt.2 ha]

end Writer

/-! ### The writer in the core (rules R605 to R607) -/

section WriterTick
variable {s : State}

theorem bufWord_written {a : Nat} {v : Data} (h : memRead s.wrt.buf a = some v) : bufWord s a = v := by
  simp [bufWord, h]

/-- The elements that the writer's own step assigns; the two others belong to the write ports. -/
theorem tick_wrt_run (hrst : s.inp.rst = false) :
    (tick s).wrt = { wrtRun s.cfg s.wrt s.inp.host.startCmd s.inp.host.startTest (rdyCin s) with
      buf := (tick s).wrt.buf, len := (tick s).wrt.len } := by
  rw [tick_wrt s hrst]
  rfl

/-- A tick in CMD, on a packet that the buffer holds. -/
theorem tick_wrt_cmd (hrst : s.inp.rst = false) (hst : s.wrt.st = .cmd) (hidx : s.wrt.idx < s.wrt.curLen)
    (hlen : s.wrt.curLen ≤ s.cfg.bufWords) :
    (tick s).wrt.curLen = s.wrt.curLen ∧ (tick s).wrt.n = s.wrt.n ∧
      (rdyCin s = true → s.wrt.idx = s.wrt.curLen - 1 → (tick s).wrt.idx = 0 ∧ (tick s).wrt.st = .idle) ∧
      (rdyCin s = true → s.wrt.idx ≠ s.wrt.curLen - 1 →
        (tick s).wrt.idx = s.wrt.idx + 1 ∧ (tick s).wrt.st = .cmd) ∧
      (rdyCin s = false → (tick s).wrt.idx = s.wrt.idx ∧ (tick s).wrt.st = .cmd) := by
  rw [tick_wrt_run hrst]
  cases hr : rdyCin s with
  | false =>
    rw [wrtRun_stalled (by simp [hst])]
    simp [hst]
  | true =>
    rw [wrtRun_cmd_inPacket hst hidx hlen]
    by_cases hlast : s.wrt.idx = s.wrt.curLen - 1
    · rw [if_pos hlast]; simp [hlast]
    · rw [if_neg hlast]; simp [hlast, hst]

end WriterTick

/-- Settles O3: the rows of the type words and of a command word are the tick of the writer in their state. -/
theorem typeWordsStep : Obligations.TypeWordsStep := by
  refine ⟨fun i s ⟨hc, hrst⟩ hst hrow => ?testType, fun ty s ⟨hc, hrst⟩ hst hidx hpos hlen hword => ?first,
    fun s ⟨hc, hrst⟩ hst hidx hlen => ?word⟩
  case testType =>
    have hoccurs : occurs i s = true := by
      rcases hrow with rfl | rfl
      · simp [occurs, emitsTypeTest, hst]
      · simp [occurs, emitsType, hst, typeTest]
    refine ⟨wrtOut_testType hst, tick s, exec_of_occurs hc hoccurs, ?_⟩
    rw [tick_wrt_run hrst]
    cases hr : rdyCin s with
    | false => rw [wrtRun_stalled (by simp [hst])]; simp [hst]
    | true => rw [wrtRun_testType hst]; simp
  case first =>
    have hread : bufWord s 0 = rep4 ty := bufWord_written hword
    have hoccurs : occurs (.typeWord ty) s = true := by simp [occurs, emitsType, hst, hidx, hread]
    have hlast : s.wrt.idx = s.wrt.curLen - 1 ↔ s.wrt.curLen = 1 := by omega
    obtain ⟨hcur, hn, hend, hmore, hstall⟩ := tick_wrt_cmd hrst hst (by omega) hlen
    refine ⟨?offered, tick s, exec_of_occurs hc hoccurs, ?st, ?idx, hcur, hn⟩
    case offered =>
      rw [txWrt, wrtOut_cmd hst, wrtAtLast_eq (by omega) hlen, decide_eq_decide.2 hlast, hidx, hread]
      rfl
    case st => grind
    case idx => grind
  case word =>
    have hout : txWrt s =
        some ⟨bufWord s s.wrt.idx, 0b0000#4, decide (s.wrt.idx = s.wrt.curLen - 1), true⟩ := by
      rw [txWrt, wrtOut_cmd hst, wrtAtLast_eq hidx hlen]
      rfl
    exact ⟨⟨_, hout, fun d => bufWord_written⟩, tick s,
      exec_of_occurs hc (by simp [occurs, cinWorks, hout]), tick_wrt_cmd hrst hst hidx hlen⟩

/-- Settles O4: the pattern word's row is the tick of the writer in TEST_DATA. -/
theorem patternWordStep : Obligations.PatternWordStep := by
  intro s ⟨hc, hrst⟩ hst
  have hoccurs : occurs (.patWord s.wrt.n) s = true := by simp [occurs, emitsPat, hst]
  refine ⟨?offered, tick s, exec_of_occurs hc hoccurs, ?_⟩
  case offered =>
    rw [txWrt, wrtOut_testData hst, beq_eq_decide]
    rfl
  rw [tick_wrt_run hrst]
  cases hr : rdyCin s with
  | false => rw [wrtRun_stalled (by simp [hst])]; simp [hst]
  | true =>
    rw [wrtRun_testData hst]
    by_cases hlast : s.wrt.n = testLast
    · rw [if_pos hlast]; simp [hlast, testLast]
    · rw [if_neg hlast]
      refine ⟨rfl, rfl, fun _ h => absurd h hlast, fun _ _ => ⟨rfl, hst⟩, nofun⟩

/-! ### The host's signals to the writer (rules R601 to R603) -/

section WriterPins
variable {s : State} {h : HostIn}

theorem tick_wrt_withHost (hrst : s.inp.rst = false) :
    (tick (withHost s h)).wrt = wrtNext s.cfg s.wrt h (rdyCin s) :=
  tick_wrt (withHost s h) hrst

/-- Host signals that only the writer reads change no other block. -/
theorem tick_withHost_besides_writer (hrst : s.inp.rst = false)
    (hain : h.trigAckStrobe = s.inp.host.trigAckStrobe)
    (htin : ∀ b r, tinNext b h.trigStrobe h.trigDelay h.linktrigMode r =
      tinNext b s.inp.host.trigStrobe s.inp.host.trigDelay s.inp.host.linktrigMode r)
    (hrsm : ∀ c b inp e, rsmNext c b inp e h = rsmNext c b inp e s.inp.host) :
    (tick (withHost s h)).ain = (tick s).ain ∧ (tick (withHost s h)).tin = (tick s).tin ∧
      sameFramers (tick (withHost s h)) (tick s) ∧ (tick (withHost s h)).rsm = (tick s).rsm ∧
      sameReceivers (tick (withHost s h)) (tick s) := by
  refine ⟨?ain, ?tin, tick_withHost_framers s h, ?rsm, tick_withHost_receivers s h⟩
  case ain => rw [tick_ain_withHost hrst, tick_ain s hrst, hain]
  case tin => rw [tick_tin_withHost hrst, tick_tin s hrst, htin]
  case rsm => rw [tick_rsm s hrst, tick_rsm (withHost s h) hrst]; exact hrsm _ _ _ _

/-- Start strobes from which the writer runs alike give the same writer (rule R603). -/
theorem tick_wrt_strobes (hrst : s.inp.rst = false)
    (hrun : wrtRun s.cfg s.wrt h.startCmd h.startTest (rdyCin s) =
      wrtRun s.cfg s.wrt s.inp.host.startCmd s.inp.host.startTest (rdyCin s))
    (hports : h = { s.inp.host with startCmd := h.startCmd, startTest := h.startTest }) :
    (tick (withHost s h)).wrt = (tick s).wrt := by
  rw [tick_wrt_withHost hrst, tick_wrt s hrst]
  exact wrtNext_congr hrun (fun _ => by rw [hports]) (by rw [hports]) (by rw [hports])

end WriterPins

theorem busy_iff (s : State) : (outputs s).busy = true ↔ s.wrt.st ≠ .idle := by
  simp [outputs, busyFlag]

/-- Settles O25: the strobes are read in IDLE alone, `start_cmd` with a nonzero length first. -/
theorem hostStartStep : Obligations.HostStartStep := by
  intro s ⟨hc, hrst⟩
  refine ⟨busy_iff s, fun hst => ⟨wrtOut_idle hst, fun htest hcmd => ?quiet⟩, ?startCmd, ?startTest⟩
  case quiet =>
    refine ⟨tick s, step_eq_tick hc, ?_⟩
    conv_lhs => rw [tick_wrt_run hrst, wrtRun_idle hst, wrtStart_noCmd hcmd, htest]
    rfl
  case startCmd =>
    refine ⟨tick (withHost s (pinStartCmd s.inp.host)), rowTick_takes _ hc, fun hst hlen => ?length,
      fun hst hlen => ?empty, fun hst => ?busy,
      tick_withHost_besides_writer hrst rfl (fun _ _ => rfl) (fun _ _ _ _ => rfl)⟩
    case length =>
      have hrun : wrtRun s.cfg s.wrt true s.inp.host.startTest (rdyCin s) =
          { s.wrt with curLen := min s.wrt.len s.cfg.bufWords, idx := 0, st := .cmd } :=
        (wrtRun_idle hst _).trans (wrtStart_cmd hlen)
      simp [tick_wrt_withHost hrst, pinStartCmd, hrun]
    case empty =>
      have hrun : wrtRun s.cfg s.wrt true s.inp.host.startTest (rdyCin s) =
          if s.inp.host.startTest then { s.wrt with n := 0#12, st := .testType } else s.wrt :=
        (wrtRun_idle hst _).trans (wrtStart_noCmd (by simp [hlen]))
      simp only [tick_wrt_withHost hrst, wrtNext_st, wrtNext_curLen, wrtNext_idx, wrtNext_n, pinStartCmd, hrun]
      cases s.inp.host.startTest with
      | false => exact ⟨hst, rfl, rfl, rfl⟩
      | true => exact ⟨rfl, rfl, rfl, rfl⟩
    case busy => exact tick_wrt_strobes hrst (wrtRun_ignores_strobes hst _ _ _) rfl
  case startTest =>
    refine ⟨tick (withHost s (pinStartTest s.inp.host)), rowTick_takes _ hc, fun hst hcmd => ?test,
      fun hst hcmd hlen => ?both, fun hst => ?busy,
      tick_withHost_besides_writer hrst rfl (fun _ _ => rfl) (fun _ _ _ _ => rfl)⟩
    case test =>
      have hrun : wrtRun s.cfg s.wrt s.inp.host.startCmd true (rdyCin s) =
          { s.wrt with n := 0#12, st := .testType } :=
        (wrtRun_idle hst _).trans (wrtStart_noCmd hcmd)
      simp [tick_wrt_withHost hrst, pinStartTest, hrun]
    case both =>
      refine tick_wrt_strobes hrst ?_ rfl
      show wrtRun s.cfg s.wrt s.inp.host.startCmd true (rdyCin s) = _
      rw [wrtRun_idle hst, wrtRun_idle hst, hcmd, wrtStart_cmd hlen, wrtStart_cmd hlen]
    case busy => exact tick_wrt_strobes hrst (wrtRun_ignores_strobes hst _ _ _) rfl

/-- Settles O26: each write port assigns its own element, beside the writer's step of the same tick. -/
theorem hostWriterWrites : Obligations.HostWriterWrites := by
  intro s ⟨hc, hrst⟩
  refine ⟨fun a v => ?buffer, fun n hn => ?length⟩
  case buffer =>
    have hwrt : (tick (withHost s (pinBufWrite a v s.inp.host))).wrt =
        { (tick s).wrt with buf := bufNext s.cfg s.wrt.buf true a v } := by
      rw [tick_wrt_withHost hrst, tick_wrt s hrst]
      rfl
    refine ⟨tick (withHost s (pinBufWrite a v s.inp.host)), rowTick_takes _ hc, fun b => ?_, fun ha => ?_, ?_,
      tick_withHost_besides_writer hrst rfl (fun _ _ => rfl) (fun _ _ _ _ => rfl)⟩
    · rw [hwrt]; exact memRead_bufNext_write _ _ _ _
    · rw [hwrt]; exact bufNext_outside ha _ _ _
    · rw [hwrt]
  case length =>
    refine ⟨tick (withHost s (pinLenWrite n s.inp.host)), rowTick_takes _ hc, ?_,
      tick_withHost_besides_writer hrst rfl (fun _ _ => rfl) (fun _ _ _ _ => rfl)⟩
    rw [tick_wrt_withHost hrst, tick_wrt s hrst]
    have hlen : n % 2 ^ s.cfg.lenBits = n := Nat.mod_eq_of_lt hn
    simp [wrtNext, pinLenWrite, hlen]

/-! ### What a start makes the writer send (rules R609, R610) -/

section Sending
variable {c : Config} {read : Nat → Data} {b : Wrt}

/-- A packet's `len` words, the writer standing at word `j`. -/
def commandAt (b : Wrt) (len j : Nat) : Wrt := { b with curLen := len, idx := j, st := .cmd }

/-- The self-test's pattern, the writer standing at word `j`. -/
def patternAt (b : Wrt) (j : Nat) : Wrt := { b with n := BitVec.ofNat 12 (4 * j), st := .testData }

/-- In IDLE, without a strobe, the writer sends nothing any more. -/
theorem wrtSends_idle (hst : b.st = .idle) (n : Nat) : wrtSends c read n b = [] := by
  induction n with
  | zero => rfl
  | succ n ih =>
    have hstay : wrtRun c b false false true = b := (wrtRun_idle hst _).trans (wrtStart_noCmd (by simp))
    rw [wrtSends, wrtOut_idle hst, hstay, ih]
    rfl

/-- A writer that stands at one word after another up to the last, and then in IDLE, sends a packet of those
words: `stand j` is the writer at word `j`. -/
theorem wrtSends_packet {stand : Nat → Wrt} {word : Nat → Data} {last : Nat} {crcEn : Bool}
    (hout : ∀ j ≤ last, wrtOut c (stand j) (read (stand j).idx) =
      some ⟨word j, noMarks, decide (j = last), crcEn⟩)
    (hnext : ∀ j < last, wrtRun c (stand j) false false true = stand (j + 1))
    (hend : (wrtRun c (stand last) false false true).st = .idle) (n j : Nat) (hj : j + n = last) :
    wrtSends c read (n + 2) (stand j) =
      (asPacket ((List.range' j (n + 1)).map fun i => (word i, noMarks))).map (writerWord crcEn) := by
  induction n generalizing j with
  | zero =>
    obtain rfl : j = last := hj
    rw [wrtSends, hout j le_rfl, wrtSends_idle hend]
    simp [asPacket, writerWord]
  | succ n ih =>
    rw [wrtSends, hout j (by omega), hnext j (by omega), ih (j + 1) (by omega)]
    have hne : j ≠ last := by omega
    simp [List.range'_succ, asPacket_cons, writerWord, hne]

theorem wrtSends_commandAt {len : Nat} (hpos : 0 < len) (hlen : len ≤ c.bufWords) :
    wrtSends c read (len + 1) (commandAt b len 0) =
      (asPacket ((List.range len).map fun j => (read j, noMarks))).map (writerWord true) := by
  obtain ⟨last, rfl⟩ := Nat.exists_eq_add_one.2 hpos
  rw [List.range_eq_range']
  refine wrtSends_packet (fun j hj => ?out) (fun j hj => ?next) ?last last 0 (Nat.zero_add _)
  case out =>
    have hlast := wrtAtLast_eq (b := commandAt b (last + 1) j) (Nat.lt_succ_of_le hj) hlen
    rw [wrtOut_cmd rfl, hlast]
    rfl
  case next =>
    have hne : j ≠ last := by omega
    rw [wrtRun_cmd_inPacket rfl (show j < last + 1 by omega) hlen]
    exact if_neg hne
  case last =>
    rw [wrtRun_cmd_inPacket rfl (Nat.lt_succ_self last) hlen]
    simp [commandAt]

/-- Word 1023 is the one at 0xFFC (rules R314, R607). -/
theorem patternAt_last_iff {j : Nat} (hj : j ≤ 1023) : (patternAt b j).n = testLast ↔ j = 1023 := by
  rw [patternAt, testLast, ← BitVec.toNat_inj, BitVec.toNat_ofNat, BitVec.toNat_ofNat]
  omega

theorem wrtRun_patternAt {j : Nat} (hj : j < 1023) :
    wrtRun c (patternAt b j) false false true = patternAt b (j + 1) := by
  have hne : (patternAt b j).n ≠ testLast := fun h => hj.ne ((patternAt_last_iff hj.le).1 h)
  rw [wrtRun_testData rfl, if_neg hne]
  simp only [patternAt, Nat.mul_add, BitVec.ofNat_add, Nat.mul_one]

theorem wrtSends_patternAt :
    wrtSends c read 1025 (patternAt b 0) = (asPacket testPattern).map (writerWord false) := by
  rw [testPattern, List.range_eq_range']
  refine wrtSends_packet (stand := patternAt b) (word := fun j => pat (4 * j)) (last := 1023)
    (fun j hj => ?out) (fun j hj => ?next) ?last 1023 0 rfl
  case out =>
    have hn : (patternAt b j).n.toNat = 4 * j := Nat.mod_eq_of_lt (by omega)
    rw [wrtOut_testData rfl, hn, beq_eq_decide, decide_eq_decide.2 (patternAt_last_iff hj)]
  case next => exact wrtRun_patternAt hj
  case last => rw [wrtRun_testData rfl, if_pos ((patternAt_last_iff le_rfl).2 rfl)]

theorem wrtSends_testType (hst : b.st = .testType) (n : Nat) :
    wrtSends c read (n + 1) b =
      ⟨0x04040404#32, 0b0000#4, false, false⟩ :: wrtSends c read n (patternAt b 0) := by
  rw [wrtSends, wrtOut_testType hst, wrtRun_testType hst]
  rfl

end Sending

/-- Settles O57: each start brings the writer to the first word of its packet. -/
theorem writerOnAPacket : Obligations.WriterOnAPacket := by
  intro c read b hbuf hst
  refine ⟨fun hlen => ?command, ?test⟩
  case command =>
    have hstart : wrtRun c b true false true = commandAt b (min b.len c.bufWords) 0 :=
      (wrtRun_idle hst _).trans (wrtStart_cmd hlen)
    rw [hstart]
    exact wrtSends_commandAt (by omega) (Nat.min_le_right _ _)
  case test =>
    have hstart : wrtRun c b false true true = { b with n := 0#12, st := .testType } :=
      (wrtRun_idle hst _).trans (wrtStart_noCmd (by simp))
    rw [hstart, wrtSends_testType rfl, wrtSends_patternAt]
    rfl

end Sys2Proof.Machine

/-!
The command packet reassembler (rules R641 to R649): a word of a packet, a whole packet, and the host's signals
to the ring.
-/
namespace Sys2Proof.Machine

/-! ### A word of a packet (rules R641, R642, R644 to R646) -/

section Reassembler
variable {c : Config} {b : Rsm} {w : Word} {e : Bool}

/-- On a count inside the slot, the branch of rule R641 is a bound. -/
theorem rsmStored_eq_min (hcount : b.wcount ≤ c.slotWords) :
    rsmStored c b = min (b.wcount + 1) c.slotWords := by
  unfold rsmStored; split <;> omega

/-- The write port of the slot memory (rule R641). -/
theorem memRead_rsmMem (a : Nat) :
    memRead (rsmMem c b w) a =
      if a = slotIndex c b.wr b.wcount ∧ b.wcount < c.slotWords then some w.data else memRead b.mem a := by
  by_cases hfree : b.wcount < c.slotWords
  case neg => simp [rsmMem, hfree]
  case pos =>
    by_cases ha : a = slotIndex c b.wr b.wcount
    · simp [rsmMem, hfree, ha, memRead_memWrite_same]
    · simp [ha, memRead_rsmMem_other w ha]

theorem ringFull_iff : ringFull c b = true ↔ (b.wr + 1) % c.nSlots = b.rd := by
  simp [ringFull]

@[simp] theorem rsmOverflow_none : rsmOverflow c b none e = false := rfl

theorem rsmOverflow_some :
    rsmOverflow c b (some w) e =
      decide (w.eop = true ∧ e = false ∧ (b.wr + 1) % c.nSlots = b.rd) := by
  rw [Bool.eq_iff_iff]
  simp [rsmOverflow, rsmCommits, ringFull_iff, and_assoc]

@[simp] theorem rsmNext_bufferError (inp : Option Word) (h : HostIn) :
    (rsmNext c b inp e h).bufferError = bufferErrorNext b.bufferError h.ackErrors (rsmOverflow c b inp e) := rfl

/-- The write cursor moves with a packet that is published (rules R642, R644). -/
theorem rsmTake_wr_eq :
    (rsmTake c b (some w) e).wr =
      if w.eop = true ∧ e = false ∧ (b.wr + 1) % c.nSlots ≠ b.rd then (b.wr + 1) % c.nSlots else b.wr := by
  simp [ringFull, and_assoc]

/-- The length of a slot after a word (rule R642). -/
theorem rsmTake_slotLen_getD (hwr : b.wr < b.slotLen.length) (hcount : b.wcount ≤ c.slotWords) (slot : Nat) :
    (rsmTake c b (some w) e).slotLen.getD slot 0 =
      if w.eop = true ∧ e = false ∧ slot = b.wr then min (b.wcount + 1) c.slotWords
      else b.slotLen.getD slot 0 := by
  rw [rsmTake_slotLen, rsmStored_eq_min hcount]
  by_cases hcommit : w.eop = true ∧ e = false
  case neg => rw [if_neg (by simpa using hcommit), if_neg fun ⟨heop, he, _⟩ => hcommit ⟨heop, he⟩]
  case pos =>
    obtain ⟨heop, he⟩ := hcommit
    by_cases hslot : slot = b.wr
    · simp [heop, he, hslot, hwr]
    · simp [heop, he, hslot, List.getElem?_set_ne (Ne.symm hslot)]

end Reassembler

theorem tick_bufferOverflow (s : State) :
    (tick s).out.bufferOverflow = rsmOverflow s.cfg s.rsm (rxCmd s) (crcErrorCmd s) := by
  rw [tick_out]; rfl

/-- Settles O17: the row is the tick of the reassembler on the command checker's word. -/
theorem storePacketStep : Obligations.StorePacketStep := by
  refine ⟨fun s ⟨hc, hrst⟩ => ⟨rfl, rfl, rfl, fun hnone => ?quiet⟩,
    fun w s ⟨hc, hrst⟩ hw hcount hwr => ?word⟩
  case quiet =>
    refine ⟨tick s, step_eq_tick hc, ?_, ?_⟩
    · rw [tick_bufferOverflow, hnone, rsmOverflow_none]
    · rw [tick_rsm s hrst, hnone, rsmNext_bufferError, rsmOverflow_none]
      rfl
  case word =>
    have hoccurs : occurs .storeCommandPacket s = true := by simp [occurs, rsmWorks, hw]
    have hrsm : (tick s).rsm = rsmNext s.cfg s.rsm (some w) (crcErrorCmd s) s.inp.host := hw ▸ tick_rsm s hrst
    have hover : (tick s).out.bufferOverflow = rsmOverflow s.cfg s.rsm (some w) (crcErrorCmd s) :=
      hw ▸ tick_bufferOverflow s
    refine ⟨tick s, exec_of_occurs hc hoccurs, ?_⟩
    simp only [slotLen, hrsm, hover]
    exact ⟨memRead_rsmMem, by rw [rsmNext_wcount, rsmTake_wcount, rsmStored_eq_min hcount],
      rsmTake_slotLen_getD hwr hcount, rsmTake_wr_eq, rsmOverflow_some, rfl, rfl⟩

/-! ### A whole packet (rule R652) -/

section Packet
variable {c : Config} {b : Rsm} {e : Bool}

/-- The reassembler after a packet of `n` stored words that leaves the slot memory `m`: dropped by its CRC check,
overflowing the ring, or published (rules R642, R644, R646). -/
def rsmClosed (c : Config) (b : Rsm) (e : Bool) (n : Nat) (m : Memory) : Rsm where
  wr := if !e && !ringFull c b then (b.wr + 1) % c.nSlots else b.wr
  rd := b.rd
  wcount := 0
  mem := m
  slotLen := if e then b.slotLen else b.slotLen.set b.wr n
  bufferError := (!e && ringFull c b) || b.bufferError

theorem rsmNext_last (x : Data × Marks) :
    rsmNext c b (some ⟨x.1, x.2, true⟩) e HostIn.quiet =
      rsmClosed c b e (rsmStored c b) (rsmMem c b ⟨x.1, x.2, true⟩) := by
  cases e <;> simp [rsmNext, rsmTake, rsmClosed, bufferErrorNext, rsmOverflow, rsmCommits, HostIn.quiet]

/-- Before the last word only the slot memory and the word count change. -/
theorem rsmNext_inner (x : Data × Marks) :
    rsmNext c b (some ⟨x.1, x.2, false⟩) e HostIn.quiet =
      { b with mem := rsmMem c b ⟨x.1, x.2, false⟩, wcount := rsmStored c b } := by
  simp [rsmNext, rsmTake, bufferErrorNext, rsmOverflow, rsmCommits, HostIn.quiet]

theorem rsmFeed_single (x : Data × Marks) :
    rsmFeed c b e (asPacket [x]) =
      rsmClosed c b e (rsmStored c b) (rsmMem c b ⟨x.1, x.2, true⟩) := rsmNext_last x

theorem rsmFeed_cons (x y : Data × Marks) (ws : List (Data × Marks)) :
    rsmFeed c b e (asPacket (x :: y :: ws)) =
      rsmFeed c { b with mem := rsmMem c b ⟨x.1, x.2, false⟩, wcount := rsmStored c b } e
        (asPacket (y :: ws)) := by
  rw [asPacket_cons, rsmFeed, rsmNext_inner]

/-- A packet closes with as many words stored as fit, whatever its words are. -/
theorem rsmFeed_closes (x : Data × Marks) (ws : List (Data × Marks)) (hcount : b.wcount ≤ c.slotWords) :
    ∃ m, rsmFeed c b e (asPacket (x :: ws)) =
      rsmClosed c b e (min (b.wcount + (x :: ws).length) c.slotWords) m := by
  induction ws generalizing b x with
  | nil => exact ⟨_, by rw [rsmFeed_single, rsmStored_eq_min hcount]; rfl⟩
  | cons y ws ih =>
    have hstored : min (rsmStored c b + (y :: ws).length) c.slotWords =
        min (b.wcount + (x :: y :: ws).length) c.slotWords := by
      rw [rsmStored_eq_min hcount]
      simp only [List.length_cons]
      omega
    rw [rsmFeed_cons, ← hstored]
    exact ih y (rsmStored_le c b)

/-- A word is not written before the word count, nor past the slot. -/
theorem memRead_rsmMem_outside {w : Word} {a : Nat}
    (ha : a < slotIndex c b.wr b.wcount ∨ slotIndex c b.wr c.slotWords ≤ a) :
    memRead (rsmMem c b w) a = memRead b.mem a := by
  rw [memRead_rsmMem, if_neg]
  unfold slotIndex at ha ⊢
  omega

/-- A packet writes no word before the word count it begins with, nor past its slot. -/
theorem memRead_rsmFeed_outside (x : Data × Marks) (ws : List (Data × Marks)) {a : Nat}
    (hcount : b.wcount ≤ c.slotWords)
    (ha : a < slotIndex c b.wr b.wcount ∨ slotIndex c b.wr c.slotWords ≤ a) :
    memRead (rsmFeed c b e (asPacket (x :: ws))).mem a = memRead b.mem a := by
  induction ws generalizing b x with
  | nil => rw [rsmFeed_single]; exact memRead_rsmMem_outside ha
  | cons y ws ih =>
    have hnext : a < slotIndex c b.wr (rsmStored c b) ∨ slotIndex c b.wr c.slotWords ≤ a := by
      rw [rsmStored_eq_min hcount]
      unfold slotIndex at ha ⊢
      omega
    rw [rsmFeed_cons, ih y (rsmStored_le c b) hnext]
    exact memRead_rsmMem_outside ha

/-- A packet's word `j` is in the slot, `j` places after the word count it begins with, where that place is one
of the slot. -/
theorem memRead_rsmFeed_stored (x : Data × Marks) (ws : List (Data × Marks)) {j : Nat}
    (hj : j < (x :: ws).length) (hfit : b.wcount + j < c.slotWords) :
    memRead (rsmFeed c b e (asPacket (x :: ws))).mem (slotIndex c b.wr (b.wcount + j)) =
      some (x :: ws)[j].1 := by
  induction ws generalizing b x j with
  | nil =>
    obtain rfl : j = 0 := by simpa using hj
    rw [rsmFeed_single, rsmClosed, memRead_rsmMem, if_pos ⟨rfl, hfit⟩]
    rfl
  | cons y ws ih =>
    have hstored : rsmStored c b = b.wcount + 1 := by rw [rsmStored, if_pos (by omega)]
    rw [rsmFeed_cons, hstored]
    cases j with
    | zero =>
      have hbefore : slotIndex c b.wr b.wcount < slotIndex c b.wr (b.wcount + 1) := by simp [slotIndex]
      rw [memRead_rsmFeed_outside y ws (show b.wcount + 1 ≤ c.slotWords from hfit) (.inl hbefore),
        memRead_rsmMem, if_pos ⟨rfl, hfit⟩]
      rfl
    | succ j =>
      have hplace : b.wcount + (j + 1) = b.wcount + 1 + j := by omega
      rw [hplace] at hfit ⊢
      exact ih y (by simpa using hj) hfit

end Packet

/-- Settles O59: a packet begins at word 0 of the write cursor's slot, its words follow one another there, and
its last one closes it. -/
theorem reassemblerOnAPacket : Obligations.ReassemblerOnAPacket := by
  intro c b e ws hstart hne _ _
  obtain ⟨x, ws, rfl⟩ := List.exists_cons_of_ne_nil hne
  have hcount : b.wcount ≤ c.slotWords := by omega
  intro r
  obtain ⟨m, hr⟩ : ∃ m, r = rsmClosed c b e (min (b.wcount + (x :: ws).length) c.slotWords) m :=
    rsmFeed_closes x ws hcount
  rw [hstart, Nat.zero_add] at hr
  refine ⟨?wcount, ?rd, fun j hj hfit => ?stored, fun a ha => ?outside, fun he => ?dropped, fun he => ?passed⟩
  case wcount => rw [hr]; rfl
  case rd => rw [hr]; rfl
  case stored =>
    have hword := memRead_rsmFeed_stored (b := b) (c := c) (e := e) x ws hj (by omega)
    rwa [hstart, Nat.zero_add] at hword
  case outside => exact memRead_rsmFeed_outside x ws hcount (by rwa [hstart])
  case dropped =>
    subst he
    rw [hr]
    exact ⟨rfl, rfl, rfl⟩
  case passed =>
    subst he
    rw [hr]
    refine ⟨rfl, fun hfree => ?_, fun hfull => ?_⟩
    · have hring : ringFull c b = false := by simpa [ringFull] using hfree
      simp [rsmClosed, hring]
    · have hring : ringFull c b = true := ringFull_iff.2 hfull
      simp [rsmClosed, hring]

/-! ### The host's signals to the ring (rules R647 to R649) -/

section RingPins
variable {s : State} {h : HostIn}

/-- Host signals that agree on what the transmit blocks read change none of them (rule R119). -/
theorem tick_withHost_transmit (hrst : s.inp.rst = false) (hpins : sameTransmitPins h s.inp.host) :
    sameTransmit (tick (withHost s h)) (tick s) := by
  obtain ⟨hbufWe, hbufAddr, hbufWdata, hlenWe, hlenWdata, hcmd, htest, hstrobe, hdelay, hmode, hack⟩ := hpins
  refine ⟨tick_withHost_framers s h, ?wrt, ?ain, ?tin⟩
  case wrt =>
    rw [tick_wrt_withHost hrst, tick_wrt s hrst]
    exact wrtNext_congr (by rw [hcmd, htest]) (fun _ => by rw [hbufWe, hbufAddr, hbufWdata]) hlenWe hlenWdata
  case ain => rw [tick_ain_withHost hrst, tick_ain s hrst, hack]
  case tin => rw [tick_tin_withHost hrst, tick_tin s hrst, hstrobe, hdelay, hmode]

theorem tick_rsm_withHost (hrst : s.inp.rst = false) :
    (tick (withHost s h)).rsm = rsmNext s.cfg s.rsm (rxCmd s) (crcErrorCmd s) h :=
  tick_rsm (withHost s h) hrst

/-- The overflow test reads no host signal, so not the cursor being written either (rules R644, R647). -/
theorem tick_bufferOverflow_withHost :
    (tick (withHost s h)).out.bufferOverflow = (tick s).out.bufferOverflow := by
  rw [tick_bufferOverflow, tick_bufferOverflow]; rfl

/-- An acknowledge leaves the flag to the overflow of its tick (rule R648). -/
theorem rsmNext_pinAckErrors {c : Config} {b : Rsm} {e : Bool} (inp : Option Word) (h : HostIn) :
    rsmNext c b inp e (pinAckErrors h) =
      { rsmNext c b inp e h with bufferError := rsmOverflow c b inp e } := by
  have hflag : bufferErrorNext b.bufferError true (rsmOverflow c b inp e) = rsmOverflow c b inp e := by
    simp [bufferErrorNext]
  conv_rhs => rw [← hflag]
  rfl

/-- A running core reads the slot read port's address for its outputs only (rule R649). -/
theorem tick_pinSlotRead (hrst : s.inp.rst = false) (slot word : Nat) :
    { tick (withHost s (pinSlotRead slot word s.inp.host)) with out := (tick s).out } = tick s := by
  rw [tick_running s hrst, tick_running (withHost s (pinSlotRead slot word s.inp.host)) hrst]
  rfl

theorem slotAddr_pinSlotRead {slot : Nat} (hslot : slot < s.cfg.nSlots) (word : Nat) :
    slotAddr (withHost s (pinSlotRead slot word s.inp.host)) = slot :=
  Nat.mod_eq_of_lt hslot

/-- A word of the slot that was written is the one read (rule R649). -/
theorem slotRdata_written {v : Data} (hword : s.inp.host.wordRaddr < s.cfg.slotWords)
    (hread : memRead s.rsm.mem (slotIndex s.cfg (slotAddr s) s.inp.host.wordRaddr) = some v) :
    slotRdata s = v := by
  simp [slotRdata, hword, hread]

end RingPins

/-- Settles O27: the two signals reach the read cursor and the flag, beside the word of the same tick. -/
theorem hostRingWrites : Obligations.HostRingWrites := by
  intro s ⟨hc, hrst⟩
  refine ⟨fun n => ⟨tick (withHost s (pinRdWrite n s.inp.host)), rowTick_takes _ hc, ?rd,
      tick_bufferOverflow_withHost, tick_withHost_receivers _ _, tick_withHost_transmit hrst ?_⟩,
    ⟨tick (withHost s (pinAckErrors s.inp.host)), rowTick_takes _ hc, ?ack,
      tick_bufferOverflow_withHost, tick_withHost_receivers _ _, tick_withHost_transmit hrst ?_⟩⟩
  case rd => rw [tick_rsm_withHost hrst, tick_rsm s hrst]; rfl
  case ack =>
    rw [tick_rsm_withHost hrst, tick_bufferOverflow_withHost, tick_bufferOverflow, tick_rsm s hrst]
    exact rsmNext_pinAckErrors _ _
  all_goals exact ⟨rfl, rfl, rfl, rfl, rfl, rfl, rfl, rfl, rfl, rfl, rfl⟩

/-- Settles O28: the outputs are those of the addressed word and slot, and no block reads the address. -/
theorem hostSlotReadStep : Obligations.HostSlotReadStep := by
  intro slot word s ⟨hc, hrst⟩ hslot
  have haddr := slotAddr_pinSlotRead hslot word
  refine ⟨tick (withHost s (pinSlotRead slot word s.inp.host)), rowTick_takes _ hc, fun v hword hread => ?word,
    ?len, ?wrPtr, ?rdPtr, tick_pinSlotRead hrst slot word⟩
  case word =>
    rw [tick_out]
    exact slotRdata_written hword (by rw [haddr]; exact hread)
  case len =>
    rw [tick_out]
    exact congrArg (slotLen s) haddr
  case wrPtr | rdPtr => rw [tick_out]; rfl

end Sys2Proof.Machine

/-!
The heartbeat reader (rules R660 to R663): one word at a time, in the core's tick, and over a whole packet.
-/
namespace Sys2Proof.Machine

/-! ### One word (rules R660, R661) -/

section Heartbeat
variable {b : Hbr} {w : Word} {e : Bool}

/-- The staging words after a word, each in its place (rule R661). -/
theorem hbrStage_eq (b : Hbr) (d : Data) :
    hbrStage b d =
      (if b.cnt = 0#2 then d else b.w0, if b.cnt = 1#2 then d else b.w1, if b.cnt = 2#2 then d else b.w2) := by
  unfold hbrStage
  split_ifs <;> simp_all

theorem hbrNext_w0 : (hbrNext b (some w) e).w0 = if b.cnt = 0#2 then w.data else b.w0 :=
  congrArg (·.1) (hbrStage_eq b w.data)

theorem hbrNext_w1 : (hbrNext b (some w) e).w1 = if b.cnt = 1#2 then w.data else b.w1 :=
  congrArg (·.2.1) (hbrStage_eq b w.data)

theorem hbrNext_w2 : (hbrNext b (some w) e).w2 = if b.cnt = 2#2 then w.data else b.w2 :=
  congrArg (·.2.2) (hbrStage_eq b w.data)

/-- On two wires the saturating count is a minimum. -/
theorem hbrGot_toNat (b : Hbr) : (hbrGot b).toNat = min (b.cnt.toNat + 1) 3 := by
  unfold hbrGot
  split
  next h => rw [h]; rfl
  next h => bv_omega

theorem hbrNext_cnt :
    (hbrNext b (some w) e).cnt.toNat = if w.eop then 0 else min (b.cnt.toNat + 1) 3 := by
  cases heop : w.eop <;> simp [hbrNext, heop, hbrGot_toNat]

theorem hbrAccepts_iff : (w.eop && hbrAccepts b e) = true ↔ w.eop = true ∧ 2 ≤ b.cnt.toNat ∧ e = false := by
  simp [hbrAccepts]

/-- The values taken are those of the staging words as they stand after the word. -/
theorem hbrNext_values_replaced (h : w.eop = true ∧ 2 ≤ b.cnt.toNat ∧ e = false) :
    (hbrNext b (some w) e).hostId = be32 (hbrNext b (some w) e).w0 ∧
    (hbrNext b (some w) e).timestamp =
      be32 (hbrNext b (some w) e).w1 ++ be32 (hbrNext b (some w) e).w2 :=
  ⟨if_pos (hbrAccepts_iff.2 h), if_pos (hbrAccepts_iff.2 h)⟩

theorem hbrNext_values_kept (h : ¬ (w.eop = true ∧ 2 ≤ b.cnt.toNat ∧ e = false)) :
    (hbrNext b (some w) e).hostId = b.hostId ∧ (hbrNext b (some w) e).timestamp = b.timestamp :=
  ⟨if_neg (mt hbrAccepts_iff.1 h), if_neg (mt hbrAccepts_iff.1 h)⟩

end Heartbeat

/-- Settles O18: the row is the tick of the reader on the heartbeat checker's word. -/
theorem heartbeatStep : Obligations.HeartbeatStep := by
  refine ⟨fun s => ⟨rfl, rfl⟩, fun w s ⟨hc, hrst⟩ hw => ?word⟩
  have hoccurs : occurs .heartbeatParse s = true := by simp [occurs, hbrWorks, hw]
  have hnext : (tick s).hbr = hbrNext s.hbr (some w) (crcErrorHb s) := hw ▸ tick_hbr s hrst
  refine ⟨tick s, exec_of_occurs hc hoccurs, ?_⟩
  rw [hnext]
  exact ⟨hbrNext_w0, hbrNext_w1, hbrNext_w2, hbrNext_cnt, hbrNext_values_replaced, hbrNext_values_kept⟩

/-! ### A whole packet (rule R663) -/

/-- The reader with one more word of a packet counted and staged (rule R661). -/
def hbrStaged (b : Hbr) (d : Data) : Hbr :=
  { b with
    cnt := hbrGot b, w0 := (hbrStage b d).1, w1 := (hbrStage b d).2.1, w2 := (hbrStage b d).2.2 }

/-- The reader at the end of a packet whose words are all counted and staged (rule R661). -/
def hbrClosed (b : Hbr) (e : Bool) : Hbr :=
  { b with
    cnt := 0#2
    hostId := if b.cnt = 3#2 ∧ e = false then be32 b.w0 else b.hostId
    timestamp := if b.cnt = 3#2 ∧ e = false then be32 b.w1 ++ be32 b.w2 else b.timestamp }

section Packet
variable {b : Hbr} {e : Bool}

theorem hbrNext_inner (x : Data × Marks) : hbrNext b (some ⟨x.1, x.2, false⟩) e = hbrStaged b x.1 := by
  simp [hbrNext, hbrStaged]

/-- The count is 3 with the last word exactly when two words or more came before it. -/
theorem hbrGot_eq_three_iff : hbrGot b = 3#2 ↔ 2 ≤ b.cnt.toNat := by
  rw [← BitVec.toNat_inj, hbrGot_toNat]
  simp only [BitVec.reduceToNat]
  omega

theorem hbrNext_last (x : Data × Marks) :
    hbrNext b (some ⟨x.1, x.2, true⟩) e = hbrClosed (hbrStaged b x.1) e := by
  have haccepts : (true && hbrAccepts b e) = true ↔ (hbrStaged b x.1).cnt = 3#2 ∧ e = false := by
    rw [hbrAccepts_iff (w := ⟨x.1, x.2, true⟩), hbrStaged, hbrGot_eq_three_iff]
    simp
  simp only [hbrClosed, ← haccepts]
  rfl

/-- A packet stages its words one after another, and its last one closes it. -/
theorem hbrFeed_packet (x : Data × Marks) (ws : List (Data × Marks)) :
    hbrFeed b e (asPacket (x :: ws)) = hbrClosed (((x :: ws).map (·.1)).foldl hbrStaged b) e := by
  induction ws generalizing b x with
  | nil => exact hbrNext_last x
  | cons y ws ih => rw [asPacket_cons, hbrFeed, hbrNext_inner, ih]; rfl

/-- The values wait for the end of the packet. -/
theorem foldl_hbrStaged_values (ds : List Data) :
    (ds.foldl hbrStaged b).hostId = b.hostId ∧ (ds.foldl hbrStaged b).timestamp = b.timestamp := by
  induction ds generalizing b with
  | nil => exact ⟨rfl, rfl⟩
  | cons d ds ih => exact ih

theorem foldl_hbrStaged_cnt (ds : List Data) :
    (ds.foldl hbrStaged b).cnt.toNat = min (b.cnt.toNat + ds.length) 3 := by
  induction ds generalizing b with
  | nil => simp only [List.foldl_nil, List.length_nil]; omega
  | cons d ds ih =>
    have hcnt : (hbrStaged b d).cnt.toNat = min (b.cnt.toNat + 1) 3 := hbrGot_toNat b
    rw [List.foldl_cons, ih, hcnt, List.length_cons]
    omega

/-- Words after the third are counted and staged no more. -/
theorem foldl_hbrStaged_full (hfull : b.cnt = 3#2) (ds : List Data) : ds.foldl hbrStaged b = b := by
  induction ds with
  | nil => rfl
  | cons d ds ih =>
    have hstay : hbrStaged b d = b := by
      cases b
      cases hfull
      rfl
    rw [List.foldl_cons, hstay, ih]

/-- The first three words are the staging words. -/
theorem foldl_hbrStaged_three (hstart : b.cnt = 0#2) (d0 d1 d2 : Data) (ds : List Data) :
    (d0 :: d1 :: d2 :: ds).foldl hbrStaged b = { b with cnt := 3#2, w0 := d0, w1 := d1, w2 := d2 } := by
  have hthree : hbrStaged (hbrStaged (hbrStaged b d0) d1) d2 =
      { b with cnt := 3#2, w0 := d0, w1 := d1, w2 := d2 } := by
    simp [hbrStaged, hbrGot, hbrStage, hstart]
  rw [List.foldl_cons, List.foldl_cons, List.foldl_cons, hthree, foldl_hbrStaged_full rfl]

theorem hbrClosed_kept (h : b.cnt.toNat < 3 ∨ e = true) :
    (hbrClosed b e).hostId = b.hostId ∧ (hbrClosed b e).timestamp = b.timestamp := by
  have hno : ¬ (b.cnt = 3#2 ∧ e = false) := by
    rintro ⟨hcnt, he⟩
    simp [hcnt, he] at h
  exact ⟨if_neg hno, if_neg hno⟩

end Packet

/-- Settles O58: a packet is its words staged in order and then closed, and only a third word without a CRC
error lets the closing replace the values. -/
theorem heartbeatOnAPacket : Obligations.HeartbeatOnAPacket := by
  intro b e ws hstart hne
  obtain ⟨x, ws, rfl⟩ := List.exists_cons_of_ne_nil hne
  rw [hbrFeed_packet]
  refine ⟨rfl, fun h t1 t0 more hws he => ?replaced, fun hkeep => ?kept⟩
  case replaced =>
    rw [hws, List.map_cons, List.map_cons, List.map_cons, foldl_hbrStaged_three hstart]
    exact ⟨if_pos ⟨rfl, he⟩, if_pos ⟨rfl, he⟩⟩
  case kept =>
    obtain ⟨hid, htime⟩ := foldl_hbrStaged_values (b := b) ((x :: ws).map (·.1))
    have hshort : (((x :: ws).map (·.1)).foldl hbrStaged b).cnt.toNat < 3 ∨ e = true := by
      refine hkeep.imp_left fun hlen => ?_
      rw [foldl_hbrStaged_cnt, hstart, List.length_map]
      simp only [BitVec.reduceToNat]
      omega
    rw [← hid, ← htime]
    exact hbrClosed_kept hshort

end Sys2Proof.Machine

/-!
The test-sequence checker (rules R665 to R668): one word at a time, in the core's tick, and over a whole packet.
-/
namespace Sys2Proof.Machine

/-! ### One word (rules R665, R666) -/

section TestChecker
variable {c : Config} {b : Tck} {w : Word}

theorem testMismatch_iff : testMismatch b w = true ↔
    1024 ≤ b.wcnt.toNat ∨ w.data ≠ pat (4 * b.wcnt.toNat) ∨ w.k ≠ noMarks := by
  simp [testMismatch, or_assoc]

/-- The saturating count is a minimum, whatever its eleven wires hold. -/
theorem tckCount_toNat (b : Tck) : (tckCount b).toNat = min (b.wcnt.toNat + 1) 1024 := by
  unfold tckCount
  split
  next h => rw [Nat.min_eq_right (by omega)]; rfl
  next h => rw [BitVec.toNat_add, BitVec.toNat_ofNat]; omega

theorem testBad_eq :
    testBad b w = (b.bad || testMismatch b w || decide (b.wcnt.toNat ≠ 1023)) := by
  simp [testBad, bne, beq_eq_decide, ← BitVec.toNat_inj]

theorem tckNext_inner (h : w.eop = false) :
    tckNext c b (some w) = { b with bad := b.bad || testMismatch b w, wcnt := tckCount b } := by
  simp [tckNext, h]

theorem tckNext_last (h : w.eop = true) :
    tckNext c b (some w) =
      { wcnt := 0#11
        bad := false
        pktCnt := (b.pktCnt + 1) % 2 ^ c.testCntBits
        errCnt := if testBad b w then (b.errCnt + 1) % 2 ^ c.testCntBits else b.errCnt } := by
  simp [tckNext, h, incAt]

@[simp] theorem tckError_none (b : Tck) : tckError b none = false := rfl

theorem tckError_some : tckError b (some w) = (w.eop && testBad b w) := rfl

end TestChecker

theorem tick_testError (s : State) : (tick s).out.testError = tckError s.tck (rxPort s .test) := by
  rw [tick_out]; rfl

/-- Settles O19: the row is the tick of the checker on the word of the test port. -/
theorem testCheckStep : Obligations.TestCheckStep := by
  refine ⟨fun s => ⟨rfl, rfl⟩, fun s ⟨hc, hrst⟩ hnone => ?quiet, fun w s ⟨hc, hrst⟩ hw => ?word⟩
  case quiet =>
    refine ⟨tick s, step_eq_tick hc, ?_, ?_⟩
    · rw [tick_tck s hrst, hnone, tckNext_none]
    · rw [tick_testError, hnone, tckError_none]
  case word =>
    have hoccurs : occurs .testCheck s = true := by simp [occurs, tckWorks, hw]
    have hnext : (tick s).tck = tckNext s.cfg s.tck (some w) := hw ▸ tick_tck s hrst
    have herror : (tick s).out.testError = (w.eop && testBad s.tck w) :=
      (tick_testError s).trans (congrArg (tckError s.tck) hw)
    refine ⟨testMismatch s.tck w, tick s, exec_of_occurs hc hoccurs, testMismatch_iff,
      fun heop => ?inner, fun heop => ?last⟩
    case inner =>
      rw [hnext, herror, tckNext_inner heop, heop]
      exact ⟨rfl, tckCount_toNat s.tck, rfl, rfl, rfl⟩
    case last =>
      rw [hnext, herror, tckNext_last heop, heop, Bool.true_and]
      exact ⟨testBad_eq, rfl, rfl, rfl, rfl⟩

/-! ### A whole packet (rule R668) -/

/-- The pattern's word `k` comes before the words after it (rule R314). -/
theorem drop_testPattern {k : Nat} (hk : k < 1024) :
    testPattern.drop k = (pat (4 * k), noMarks) :: testPattern.drop (k + 1) := by
  rw [List.drop_eq_getElem_cons (by simpa [testPattern] using hk)]
  simp [testPattern]

theorem drop_testPattern_eq_nil_iff {k : Nat} : testPattern.drop k = [] ↔ 1024 ≤ k := by
  rw [List.drop_eq_nil_iff, testPattern, List.length_map, List.length_range]

section Packet
variable {c : Config} {b : Tck}

/-- A word and those after it are the pattern from the count on exactly when the word is not wrong and those
after it are the pattern from the next count on. -/
theorem cons_eq_drop_testPattern_iff (x : Data × Marks) (ws : List (Data × Marks)) (e : Bool) :
    x :: ws = testPattern.drop b.wcnt.toNat ↔
      testMismatch b ⟨x.1, x.2, e⟩ = false ∧ ws = testPattern.drop (tckCount b).toNat := by
  rw [tckCount_toNat, ← Bool.not_eq_true, testMismatch_iff]
  by_cases hk : 1024 ≤ b.wcnt.toNat
  case pos => simp [drop_testPattern_eq_nil_iff.2 hk, hk]
  case neg =>
    rw [drop_testPattern (by omega), Nat.min_eq_left (by omega), List.cons.injEq, Prod.ext_iff]
    simp [hk]

/-- The last word is in error unless it alone is the rest of the pattern: the count test of rule R666 asks that
nothing of the pattern is left after it. -/
theorem testBad_last (x : Data × Marks) :
    testBad b ⟨x.1, x.2, true⟩ = (b.bad || decide ([x] ≠ testPattern.drop b.wcnt.toNat)) := by
  have hend : [x] ≠ testPattern.drop b.wcnt.toNat ↔
      testMismatch b ⟨x.1, x.2, true⟩ = true ∨ b.wcnt.toNat ≠ 1023 := by
    rw [ne_eq, cons_eq_drop_testPattern_iff x [] true, eq_comm (a := []), drop_testPattern_eq_nil_iff,
      tckCount_toNat]
    cases hm : testMismatch b ⟨x.1, x.2, true⟩ with
    | true => simp
    | false =>
      have hk : ¬ 1024 ≤ b.wcnt.toNat := fun hk => by simp [testMismatch_iff.2 (.inl hk)] at hm
      simp only [true_and, Bool.false_eq_true, false_or]
      omega
  rw [testBad_eq, Bool.or_assoc, Bool.eq_iff_iff]
  simp only [Bool.or_eq_true, decide_eq_true_eq, hend]

/-- A word before the last is wrong, or the words after it are not the rest of the pattern. -/
theorem bad_or_rest (x : Data × Marks) (ws : List (Data × Marks)) (e : Bool) :
    (b.bad || testMismatch b ⟨x.1, x.2, e⟩ || decide (ws ≠ testPattern.drop (tckCount b).toNat)) =
      (b.bad || decide (x :: ws ≠ testPattern.drop b.wcnt.toNat)) := by
  rw [Bool.or_assoc, Bool.eq_iff_iff]
  simp only [Bool.or_eq_true, decide_eq_true_eq, ne_eq, cons_eq_drop_testPattern_iff x ws e, not_and_or,
    Bool.not_eq_false]

theorem tckFeed_cons (w : Word) (ws : List Word) :
    tckFeed c b (w :: ws) =
      ((tckFeed c (tckNext c b (some w)) ws).1,
        tckError b (some w) :: (tckFeed c (tckNext c b (some w)) ws).2) := rfl

/-- The checker after a packet that it found bad or good (rule R665). -/
def tckClosed (c : Config) (b : Tck) (bad : Bool) : Tck where
  wcnt := 0#11
  bad := false
  pktCnt := (b.pktCnt + 1) % 2 ^ c.testCntBits
  errCnt := if bad then (b.errCnt + 1) % 2 ^ c.testCntBits else b.errCnt

/-- From any count on, a packet is bad when a word before it was wrong or its words are not the rest of the
pattern. -/
theorem tckFeed_packet (x : Data × Marks) (ws : List (Data × Marks)) :
    tckFeed c b (asPacket (x :: ws)) =
      (tckClosed c b (b.bad || decide (x :: ws ≠ testPattern.drop b.wcnt.toNat)),
        List.replicate ws.length false ++
          [b.bad || decide (x :: ws ≠ testPattern.drop b.wcnt.toNat)]) := by
  induction ws generalizing b x with
  | nil =>
    rw [← testBad_last, asPacket, tckFeed_cons, tckNext_last rfl]
    rfl
  | cons y ws ih =>
    rw [asPacket_cons, tckFeed_cons, tckNext_inner rfl, ih, bad_or_rest]
    rfl

end Packet

/-- Settles O60: before a packet the count is 0, so the rest of the pattern is all of it. -/
theorem testCheckerOnAPacket : Obligations.TestCheckerOnAPacket := by
  intro c b ws hcount hbad hne
  obtain ⟨x, ws, rfl⟩ := List.exists_cons_of_ne_nil hne
  have hwhole : testPattern.drop b.wcnt.toNat = testPattern := by rw [hcount]; rfl
  intro r
  have hr : r = (tckClosed c b (decide (x :: ws ≠ testPattern)),
      List.replicate ws.length false ++ [decide (x :: ws ≠ testPattern)]) := by
    rw [show r = tckFeed c b (asPacket (x :: ws)) from rfl, tckFeed_packet, hbad, hwhole, Bool.false_or]
  rw [hr]
  exact ⟨rfl, rfl, rfl, by simp [tckClosed, ite_not], rfl⟩

end Sys2Proof.Machine

/-!
The two directions of the core (rules R680, R681, R683, R705, R750 to R755): what stops a step, what a reset tick
leaves, the selection on the transmit side, and which part of the state each direction reads.
-/
namespace Sys2Proof.Machine

/-! ### Configurations (rules R10, R705) -/

section Configurations
variable {s t : State}

/-- An admissible core answers a next state to every row: it runs a tick or turns the row away. -/
theorem exec_answers (i : Instr) (hc : s.cfg.valid = true) : ∃ t, exec i s = .next t := by
  cases hd : driven i with
  | true => exact ⟨_, (exec_driven i s hd).trans (rowTick_takes _ ((driveRow_cfg i s).symm ▸ hc))⟩
  | false =>
    rw [exec_undriven i s hd]
    cases occurs i s with
    | true => exact ⟨_, rowTick_takes s hc⟩
    | false => exact ⟨_, rowTick_turned_away s hc⟩

theorem exec_badConfiguration (i : Instr) (hc : s.cfg.valid = false) :
    exec i s = .refused .badConfiguration := by
  cases hd : driven i with
  | true => rw [exec_driven i s hd, rowTick_refused _ _ ((driveRow_cfg i s).symm ▸ hc)]
  | false => rw [exec_undriven i s hd, rowTick_refused _ _ hc]

/-- A step that answers a next state is the tick. -/
theorem eq_tick_of_step (h : step s = .next t) : t = tick s := by
  cases hc : s.cfg.valid with
  | true => exact Host.Outcome.next.inj (h.symm.trans (step_eq_tick hc))
  | false => cases h.symm.trans (exec_badConfiguration (fetch s) hc)

end Configurations

/-- Settles O35: rows and steps are refused by the configuration alone. -/
theorem nothingStopsTheCore : Obligations.NothingStopsTheCore := fun i s =>
  ⟨fun hc => ⟨exec_answers i hc, exec_answers (fetch s) hc⟩,
    fun hc => ⟨exec_badConfiguration i hc, exec_badConfiguration (fetch s) hc⟩⟩

/-! ### Reset (rules R750 to R753) -/

/-- Settles O37: a reset tick is `resetBlocks`, whose memories are empty. -/
theorem resetTick : Obligations.ResetTick := by
  intro s hc hrst
  refine ⟨tick s, step_eq_tick hc, ?_⟩
  rw [tick_in_reset s hrst]
  exact ⟨rfl, rfl, rfl, rfl, rfl, rfl, rfl, rfl, rfl, rfl, rfl, rfl, rfl, rfl, rfl, rfl,
    fun a => ⟨memRead_nil a, memRead_nil a⟩⟩

/-- Settles O38: the blocks hold the values of rules R103 to R117, and with the decoder empty no block that
pulses has a word. -/
theorem resetValues : Obligations.ResetValues :=
  ⟨rfl, rfl, rfl, rfl, rfl, rfl, rfl, rfl, rfl, rfl, rfl, rfl, rfl, rfl, rfl, rfl, rfl, rfl, rfl, rfl, rfl, rfl,
    rfl, rfl⟩

theorem reset_blocksInRange : BlocksInRange State.reset where
  cfg := by decide
  rsm := rsmReset_inRange (by decide)
  wrt := wrtReset_inRange _
  idl := by decide
  tck := tckReset_inRange _
  tin := ⟨Nat.zero_le _, fun _ => rfl⟩
  cnv := fun _ => rfl

theorem reset_legalVotes : LegalVotes State.reset := by constructor <;> decide

theorem reset_receiveAligned : ReceiveAligned State.reset := by constructor <;> decide

theorem reset_transmitAligned : TransmitAligned State.reset := by constructor <;> decide

/-- Settles O39: after reset every block is in range, every stage empty and no packet begun. -/
theorem resetIsLegal : Obligations.ResetIsLegal :=
  have ⟨hmemory, hranges⟩ := (blocksInRange_iff State.reset).1 reset_blocksInRange
  ⟨hmemory, hranges, reset_legalVotes, reset_receiveAligned, reset_transmitAligned⟩

/-! ### The selection on the transmit side (rules R680, R683) -/

section Selection
variable {s : State}

/-- The word offered to the converter, highest class first (rule R683). -/
theorem txAin_eq (s : State) :
    txAin s =
      if s.ain = .ackK then some ioackWord
      else if s.ain = .ackData then some ackDataWord
      else if s.idl.st = .writeIdle then some idleWord
      else txFrm s := by
  cases hain : s.ain with
  | ackK | ackData => simp [txAin, ainOut, hain]
  | copy =>
    rw [txAin_copy hain, txIdl]
    cases hidl : s.idl.st with
    | writeIdle => simp [idlOut_writeIdle hidl]
    | copy => simp [idlOut_copy hidl]

/-- A ready converter to which no word is offered is empty after the tick (rule R491). -/
theorem cnvNext_none_full {b : Cnv} {r : Bool} (hr : cnvInReady b r = true) :
    (cnvNext b none r).full = false := by
  rcases cnvInReady_eq_true_iff.1 hr with hempty | ⟨hlast, rfl⟩
  · rw [cnvNext_sent (.inl rfl), cnvSent_empty hempty, hempty]
  · cases hfull : b.full <;> simp [cnvNext_sent, cnvSent, hlast, hfull]

/-- A ready converter holds what is offered to it, a word at lane 0 or nothing. -/
theorem tick_cnv_ready (hrst : s.inp.rst = false) (hr : rdyCnv s = true) :
    (tick s).cnv.full = (txAin s).isSome ∧
      ∀ w, txAin s = some w → (tick s).cnv.data = w.data ∧ (tick s).cnv.k = w.k ∧ (tick s).cnv.idx = 0#2 := by
  cases hin : txAin s with
  | none =>
    refine ⟨?_, fun w hw => by cases hw⟩
    rw [tick_cnv s hrst, hin]
    exact cnvNext_none_full hr
  | some v =>
    rw [tick_cnv_taken hrst hin hr]
    exact ⟨rfl, fun w hw => by cases hw; exact ⟨rfl, rfl, rfl⟩⟩

end Selection

/-- Settles O24: each inserter offers its own content before its upstream's and is then not ready. -/
theorem prioritySelectStep : Obligations.PrioritySelectStep := by
  intro s ⟨hc, hrst⟩
  refine ⟨tick s, exec_of_occurs hc rfl, by rw [tick_out]; rfl, fun hst => ⟨?trigger, tinInReady_send hst _⟩,
    tick_txOut_copy, fun hr v hv => ?word, rdyAin_of_acking, fun hst => idlInReady_writeIdle hst _,
    rdyFrm_of_ne_copy, fun hst => cinInReady_trailer hst _⟩
  case trigger => rw [tick_txOut, txTin, tinOut_send hst]
  case word =>
    rw [hv, ← txAin_eq]
    exact tick_cnv_ready hrst hr

/-! ### Isolation (rules R680, R681, R755) -/

/-- No block and no output reads the pin, and the next inputs are the pending ones. -/
theorem tick_linkReady (b : Bool) (s : State) :
    tick { s with inp := { s.inp with linkReady := b } } = tick s := by
  cases hrst : s.inp.rst with
  | true => rw [tick_in_reset s hrst, tick_in_reset _ (by exact hrst)]; rfl
  | false => rw [tick_running s hrst, tick_running _ (by exact hrst)]; rfl

/-- Settles O46: both steps are the tick of their state. -/
theorem linkReadyHasNoEffect : Obligations.LinkReadyHasNoEffect := by
  intro b s hc
  rw [step_eq_tick hc, ← tick_linkReady b s]
  exact step_eq_tick hc

/-- The core with all that the receive blocks do not read at rest: the transmit blocks and their pins, the slot
read port and the model's own fields. -/
def receiveSide (s : State) : State :=
  { State.reset with
    cfg := s.cfg
    dcd := s.dcd
    trd := s.trd
    ard := s.ard
    cls := s.cls
    chkHb := s.chkHb
    chkCmd := s.chkCmd
    hbr := s.hbr
    tck := s.tck
    rsm := s.rsm
    inp := { Inputs.quiet with
      rst := s.inp.rst
      rxValid := s.inp.rxValid
      rxWord := s.inp.rxWord
      streamReady := s.inp.streamReady
      host := { HostIn.quiet with
        rdWe := s.inp.host.rdWe
        rdWdata := s.inp.host.rdWdata
        ackErrors := s.inp.host.ackErrors } } }

/-- The core with all that the transmit blocks do not read at rest. -/
def transmitSide (s : State) : State :=
  { State.reset with
    cfg := s.cfg
    wrt := s.wrt
    cin := s.cin
    frm := s.frm
    idl := s.idl
    ain := s.ain
    cnv := s.cnv
    tin := s.tin
    ticks := s.ticks
    inp := { Inputs.quiet with
      rst := s.inp.rst
      txReady := s.inp.txReady
      host := { s.inp.host with
        rdWe := false
        rdWdata := 0
        ackErrors := false
        slotRaddr := 0
        wordRaddr := 0 } } }

theorem receiveSide_congr {s t : State} (hcfg : s.cfg = t.cfg) (hrst : s.inp.rst = t.inp.rst)
    (hblocks : sameReceivers s t) (hrsm : s.rsm = t.rsm) (hvalid : s.inp.rxValid = t.inp.rxValid)
    (hword : s.inp.rxWord = t.inp.rxWord) (hready : s.inp.streamReady = t.inp.streamReady)
    (hpins : sameReceivePins s.inp.host t.inp.host) : receiveSide s = receiveSide t := by
  obtain ⟨hdcd, htrd, hard, hcls, hhb, hcmd, hhbr, htck⟩ := hblocks
  obtain ⟨hwe, hdata, hack⟩ := hpins
  simp only [receiveSide, hcfg, hrst, hdcd, htrd, hard, hcls, hhb, hcmd, hhbr, htck, hrsm, hvalid, hword,
    hready, hwe, hdata, hack]

theorem transmitSide_congr {s t : State} (hcfg : s.cfg = t.cfg) (hrst : s.inp.rst = t.inp.rst)
    (hblocks : sameTransmit s t) (hticks : s.ticks = t.ticks) (hready : s.inp.txReady = t.inp.txReady)
    (hpins : sameTransmitPins s.inp.host t.inp.host) : transmitSide s = transmitSide t := by
  obtain ⟨⟨hcin, hfrm, hidl, hcnv⟩, hwrt, hain, htin⟩ := hblocks
  obtain ⟨hbufWe, hbufAddr, hbufWdata, hlenWe, hlenWdata, hcmd, htest, hstrobe, hdelay, hmode, hack⟩ := hpins
  simp only [transmitSide, hcfg, hrst, hcin, hfrm, hidl, hcnv, hwrt, hain, htin, hticks, hready, hbufWe, hbufAddr,
    hbufWdata, hlenWe, hlenWdata, hcmd, htest, hstrobe, hdelay, hmode, hack]

/-- A tick of the receive side is that of the core, in every receive block. -/
theorem tick_receiveSide (s : State) :
    sameReceivers (tick (receiveSide s)) (tick s) ∧ (tick (receiveSide s)).rsm = (tick s).rsm := by
  cases hrst : s.inp.rst with
  | true =>
    rw [tick_in_reset s hrst, tick_in_reset (receiveSide s) hrst]
    exact ⟨⟨rfl, rfl, rfl, rfl, rfl, rfl, rfl, rfl⟩, rfl⟩
  | false =>
    rw [tick_running s hrst, tick_running (receiveSide s) hrst]
    exact ⟨⟨rfl, rfl, rfl, rfl, rfl, rfl, rfl, rfl⟩, rfl⟩

theorem outputs_receiveSide (s : State) : sameReceiveOutputs (outputs (receiveSide s)) (outputs s) :=
  ⟨rfl, rfl, rfl, rfl, rfl, rfl, rfl, rfl, rfl, rfl, rfl, rfl, rfl, rfl, rfl, rfl, rfl, rfl, rfl⟩

/-- A tick of the transmit side is that of the core, in every transmit block. -/
theorem tick_transmitSide (s : State) : sameTransmit (tick (transmitSide s)) (tick s) := by
  cases hrst : s.inp.rst with
  | true =>
    rw [tick_in_reset s hrst, tick_in_reset (transmitSide s) hrst]
    exact ⟨⟨rfl, rfl, rfl, rfl⟩, rfl, rfl, rfl⟩
  | false =>
    rw [tick_running s hrst, tick_running (transmitSide s) hrst]
    exact ⟨⟨rfl, rfl, rfl, rfl⟩, rfl, rfl, rfl⟩

theorem outputs_transmitSide (s : State) : sameTransmitOutputs (outputs (transmitSide s)) (outputs s) :=
  ⟨rfl, rfl, rfl⟩

/-! Two cores that agree with a third agree with each other. -/

section Agreement
variable {u s t : State} {o p q : Outputs}

theorem sameReceivers_of_common (hs : sameReceivers u s) (ht : sameReceivers u t) : sameReceivers s t := by
  simp_all [sameReceivers]

theorem sameTransmit_of_common (hs : sameTransmit u s) (ht : sameTransmit u t) : sameTransmit s t := by
  simp_all [sameTransmit, sameFramers]

theorem sameReceiveOutputs_of_common (hp : sameReceiveOutputs o p) (hq : sameReceiveOutputs o q) :
    sameReceiveOutputs p q := by
  simp_all [sameReceiveOutputs]

theorem sameTransmitOutputs_of_common (hp : sameTransmitOutputs o p) (hq : sameTransmitOutputs o q) :
    sameTransmitOutputs p q := by
  simp_all [sameTransmitOutputs]

end Agreement

/-- Settles O45: each direction's tick and outputs are those of its own side of the state, and the two states
have that side in common. -/
theorem directionsAreIsolated : Obligations.DirectionsAreIsolated := by
  intro s s' t t' h h' hcfg hrst
  obtain rfl := eq_tick_of_step h
  obtain rfl := eq_tick_of_step h'
  rw [tick_out, tick_out]
  refine ⟨fun hblocks hrsm hvalid hword hready hpins => ?receive, fun hblocks hticks hready hpins => ?transmit⟩
  case receive =>
    have hside := receiveSide_congr hcfg hrst hblocks hrsm hvalid hword hready hpins
    obtain ⟨hs, hsrsm⟩ := tick_receiveSide s
    obtain ⟨hs', hsrsm'⟩ := tick_receiveSide s'
    have ho := outputs_receiveSide s
    rw [hside] at hs hsrsm ho
    exact ⟨sameReceivers_of_common hs hs', hsrsm.symm.trans hsrsm',
      sameReceiveOutputs_of_common ho (outputs_receiveSide s')⟩
  case transmit =>
    have hside := transmitSide_congr hcfg hrst hblocks hticks hready hpins
    have hs := tick_transmitSide s
    have ho := outputs_transmitSide s
    rw [hside] at hs ho
    exact ⟨sameTransmit_of_common hs (tick_transmitSide s'),
      sameTransmitOutputs_of_common ho (outputs_transmitSide s')⟩

end Sys2Proof.Machine
